-- ==== Sys2Proof/Word.lean ====
section
/-! DEFINITION. The word widths of the block (10_state R31, 00_scope R8). -/

namespace Sys2Proof

/-- The unit of the TX and RX streams and the width of `id` (20_memory R43, 10_state R31). -/
abbrev Byte := BitVec 8

/-- The `arg` operand, the speed magnitude and the decoded variable: 16 bits (10_state R31). -/
abbrev Half := BitVec 16

/-- The command selector `op` (30_encoding R61, R62). -/
abbrev Op := BitVec 3

/-- The command word `CW[26:0]` (30_encoding R61). -/
abbrev CmdWord := BitVec 27

/-- The result record as a word, `RR[19:0]` (30_encoding R69). -/
abbrev ResultWord := BitVec 20

end Sys2Proof
end

