-- ==== Sys2Proof/Config.lean ====
section
/-! DEFINITION. What an instance of the block fixes (00_scope R6), the identifier tables of the
controller (20_memory R41, R42), and the free values a reset leaves behind (10_state R29). -/

namespace Sys2Proof.Config

/-- `SENTINEL_BYTE` (00_scope R6, 41_response_decoder R113): the byte that stands in for one the
link did not deliver. 0xFF is the default of the spec's decision D9; the operations take it as an
argument where they can, so that a claim need not rest on the value. Log 3. DESIGN CHOICE (the
spec's own). -/
def sentinelByte : Byte := 0xFF

/-- `SPEED_MAX` (00_scope R6): largest magnitude the host may pass; not enforced by the block. -/
def speedMax : Nat := 3200

/-- `LIMIT_MAX` (00_scope R6): largest limit value the host may pass; not enforced by the block. -/
def limitMax : Nat := 4095

/-- `LINK_BAUD` (00_scope R6, 42_command_sequencer R138): the host configures it; not the block's. -/
def linkBaud : Nat := 19200

/-- `SETTLE_MIN` in milliseconds (00_scope R6, 70_reset_and_hazards R180): the host's delay. -/
def settleMinMs : Nat := 5

/-- What `LINK_FORMAT` would fix of the serial line (00_scope R6, 20_memory R46). -/
structure LinkFormat where
  startBits : Nat
  stopBits : Nat
  parity : Option Bool
  leastSignificantFirst : Bool
  deriving DecidableEq, Repr, Inhabited

/-- `LINK_FORMAT` (00_scope R6): OPEN, the link's; no definition of the model reads it. Log 17. -/
opaque linkFormat : LinkFormat

/-- `RX_TIMEOUT` (00_scope R6, 41_response_decoder R118): OPEN, the link's; no definition of the
model reads it. Log 17. -/
opaque rxTimeout : Nat

/-! ### Identifier tables: documentation for the host, checked nowhere (10_state R28) -/

/-- VariableID error-status (20_memory R41). -/
def varErrorStatus : Byte := 0x00
/-- VariableID limit-status (20_memory R41). -/
def varLimitStatus : Byte := 0x03
/-- VariableID target-speed (20_memory R41), a signed variable (41_response_decoder R114). -/
def varTargetSpeed : Byte := 0x14
/-- VariableID input-voltage (20_memory R41). -/
def varInputVoltage : Byte := 0x17
/-- VariableID temperature (20_memory R41). -/
def varTemperature : Byte := 0x18

/-- LimitID forward-acceleration (20_memory R42), used by `set_forward_limit`. -/
def limitForward : Byte := 0x05
/-- LimitID reverse-acceleration (20_memory R42), used by `set_reverse_limit`. -/
def limitReverse : Byte := 0x09
/-- LimitID deceleration (20_memory R42), used by `set_deceleration_limit`. -/
def limitDeceleration : Byte := 0x02

/-! ### Free values: the state elements after a reset, unspecified but for `phase`
(10_state R29, 70_reset_and_hazards R175). The argument numbers the resets of a run. Log 2. -/

opaque resetOpQ : Nat → Op
opaque resetIdQ : Nat → Byte
opaque resetArgQ : Nat → Half
opaque resetTxIdx : Nat → BitVec 3
opaque resetRxIdx : Nat → BitVec 2
opaque resetRxB0 : Nat → Byte
opaque resetRxB1 : Nat → Byte
opaque resetRxTo : Nat → BitVec 2

end Sys2Proof.Config
end

