-- ==== Sys2Proof/Syntax.lean ====
section
/-! DEFINITION. One constructor for each row of spec/opcode_table.json. The rows lie in three
spaces whose words are never compared with each other (30_encoding R75). -/

namespace Sys2Proof

/-- Which word a row's `match` and `mask` are over (30_encoding R75). -/
inductive Space where
  /-- the bytes the block writes on TX for one command (30_encoding R63) -/
  | frame
  /-- the bytes the controller answers with on RX (30_encoding R70) -/
  | response
  /-- the command word on CMD (30_encoding R61) -/
  | commandWord
  deriving DecidableEq, Repr

/-- The rows of the opcode table. A command carries every field of its word, the ignored ones too,
because ACCEPT latches them (42_command_sequencer R127). -/
inductive Instr where
  /-- frame `EXIT_SAFE_START`, 0x83 (40_command_encoder R91) -/
  | frameExitSafeStart
  /-- frame `SET_SPEED_FORWARD`, 0x85 (40_command_encoder R93) -/
  | frameSetSpeedForward (low5 : BitVec 5) (high7 : BitVec 7)
  /-- frame `SET_SPEED_REVERSE`, 0x86 (40_command_encoder R94) -/
  | frameSetSpeedReverse (low5 : BitVec 5) (high7 : BitVec 7)
  /-- frame `DETECT_BAUD_RATE`, 0xAA (40_command_encoder R96) -/
  | frameDetectBaudRate
  /-- frame `SET_LIMIT`, 0xA2 (40_command_encoder R95) -/
  | frameSetLimit (limitId : Byte) (low7 : BitVec 7) (high5 : BitVec 5)
  /-- frame `GET_VARIABLE`, 0xA1 (40_command_encoder R97) -/
  | frameGetVariable (variableId : Byte)
  /-- response `RS1`, one status byte (41_response_decoder R111) -/
  | responseStatus (status : Byte)
  /-- response `RV2`, two bytes, low byte first (41_response_decoder R112) -/
  | responseVariable (valueLow valueHigh : Byte)
  /-- command `exit_safe_start`, op 0; both fields ignored (40_command_encoder R91) -/
  | exitSafeStart (id : Byte) (arg : Half)
  /-- command `set_motor_speed`, op 1; `id` ignored, `speed` in two's complement
  (40_command_encoder R92) -/
  | setMotorSpeed (id : Byte) (speed : Half)
  /-- command `set_limit`, op 2 (40_command_encoder R95) -/
  | setLimit (limitId : Byte) (value : Half)
  /-- command `detect_baud_rate`, op 3; both fields ignored (40_command_encoder R96) -/
  | detectBaudRate (id : Byte) (arg : Half)
  /-- command `get_variable`, op 4; `arg` ignored (40_command_encoder R97,
  42_command_sequencer R136) -/
  | getVariable (variableId : Byte) (arg : Half)
  /-- reserved selector 5 (30_encoding R71, 42_command_sequencer R139) -/
  | reservedOp5 (id : Byte) (arg : Half)
  /-- reserved selector 6 (30_encoding R71, 42_command_sequencer R139) -/
  | reservedOp6 (id : Byte) (arg : Half)
  /-- reserved selector 7 (30_encoding R71, 42_command_sequencer R139) -/
  | reservedOp7 (id : Byte) (arg : Half)
  /-- pseudo-command `set_forward_limit`: op 2, id 5 (42_command_sequencer R133) -/
  | setForwardLimit (value : Half)
  /-- pseudo-command `set_reverse_limit`: op 2, id 9 (42_command_sequencer R134) -/
  | setReverseLimit (value : Half)
  /-- pseudo-command `set_deceleration_limit`: op 2, id 2 (42_command_sequencer R135) -/
  | setDecelerationLimit (value : Half)
  deriving DecidableEq, Repr

end Sys2Proof
end

