-- ==== Sys2Proof/WellFormed.lean ====
section
/-! DEFINITION. Which terms of `Instr` name their word canonically. Field widths are in the types,
so one check is left: a `set_limit` word with one of the three listed identifiers is named by its
pseudo-command row (30_encoding R74, R75). Log 8. -/

namespace Sys2Proof

/-- The three identifiers that a pseudo-command row names (30_encoding R74, 20_memory R42). -/
def isPseudoLimitId (limitId : Byte) : Bool :=
  limitId == Config.limitForward || limitId == Config.limitReverse
    || limitId == Config.limitDeceleration

/-- A term is well-formed when decoding its word gives it back. DESIGN CHOICE, log 8: the words of
`set_limit` 5, 9 and 2 are named by their pseudo-commands. -/
def Instr.wellFormed : Instr → Bool
  | .frameExitSafeStart => true
  | .frameSetSpeedForward _ _ => true
  | .frameSetSpeedReverse _ _ => true
  | .frameDetectBaudRate => true
  | .frameSetLimit _ _ _ => true
  | .frameGetVariable _ => true
  | .responseStatus _ => true
  | .responseVariable _ _ => true
  | .exitSafeStart _ _ => true
  | .setMotorSpeed _ _ => true
  | .setLimit limitId _ => !isPseudoLimitId limitId
  | .detectBaudRate _ _ => true
  | .getVariable _ _ => true
  | .reservedOp5 _ _ => true
  | .reservedOp6 _ _ => true
  | .reservedOp7 _ _ => true
  | .setForwardLimit _ => true
  | .setReverseLimit _ => true
  | .setDecelerationLimit _ => true

end Sys2Proof
end

