-- ==== Sys2Proof/Decode.lean ====
section
/-! DEFINITION. Decoding the three word spaces (30_encoding R61 to R71, R75 to R77), total on any
bytes, and the encoder. Bytes stand in the order of transfer; the byte transferred first is the
low byte of a word (R75). -/

namespace Sys2Proof

/-- Why some bytes are no row of the opcode table. -/
inductive DecodeError where
  /-- no byte at all -/
  | empty
  /-- a frame's first byte is none of the six opcodes (30_encoding R65, R72) -/
  | unknownOpcode (opcode : Byte)
  /-- more or fewer bytes than the row has (30_encoding R64, R70) -/
  | wrongLength
  /-- a masked payload byte has a bit set that is always zero (30_encoding R63, R72) -/
  | payloadBitSet
  /-- a command word has a bit set above bit 26 (30_encoding R61) -/
  | commandWordTooWide
  deriving DecidableEq, Repr

/-! ### Words and bytes -/

/-- The low `n` bytes of `w`, low byte first (30_encoding R75). -/
def bytesOfWord : Nat → Nat → List Byte
  | 0, _ => []
  | n + 1, w => BitVec.ofNat 8 w :: bytesOfWord n (w / 256)

/-- The word whose low byte is the first byte (30_encoding R75). -/
def wordOfBytes : List Byte → Nat
  | [] => 0
  | b :: bs => b.toNat + 256 * wordOfBytes bs

/-- `CW = {op, id, arg}` (30_encoding R61). -/
def cmdWord (op : Op) (id : Byte) (arg : Half) : CmdWord := op ++ id ++ arg

/-- `CW[26:24]` (30_encoding R61). -/
def cmdOp (cw : CmdWord) : Op := cw.extractLsb' 24 3

/-- `CW[23:16]` (30_encoding R61). -/
def cmdId (cw : CmdWord) : Byte := cw.extractLsb' 16 8

/-- `CW[15:0]` (30_encoding R61). -/
def cmdArg (cw : CmdWord) : Half := cw.extractLsb' 0 16

/-! ### Decoders -/

/-- A `set_limit` word, named by its pseudo-command where it has one (30_encoding R74; log 8). -/
def decodeSetLimit (limitId : Byte) (value : Half) : Instr :=
  if limitId = Config.limitForward then .setForwardLimit value
  else if limitId = Config.limitReverse then .setReverseLimit value
  else if limitId = Config.limitDeceleration then .setDecelerationLimit value
  else .setLimit limitId value

/-- The command a command word names: every word names one (30_encoding R62, R71). -/
def decodeCommand (cw : CmdWord) : Instr :=
  match (cmdOp cw).toNat with
  | 0 => .exitSafeStart (cmdId cw) (cmdArg cw)
  | 1 => .setMotorSpeed (cmdId cw) (cmdArg cw)
  | 2 => decodeSetLimit (cmdId cw) (cmdArg cw)
  | 3 => .detectBaudRate (cmdId cw) (cmdArg cw)
  | 4 => .getVariable (cmdId cw) (cmdArg cw)
  | 5 => .reservedOp5 (cmdId cw) (cmdArg cw)
  | 6 => .reservedOp6 (cmdId cw) (cmdArg cw)
  | _ => .reservedOp7 (cmdId cw) (cmdArg cw)

/-- Whether the bits of `b` from bit `width` up are zero (30_encoding R72). -/
def fitsIn (width : Nat) (b : Byte) : Bool := b >>> width == 0

/-- The payload of a speed frame: low5 then high7 (30_encoding R63 format W3, R76). -/
def decodeSpeedPayload (ctor : BitVec 5 → BitVec 7 → Instr) :
    List Byte → Except DecodeError Instr
  | [a, b] =>
    if fitsIn 5 a && fitsIn 7 b then .ok (ctor (a.setWidth 5) (b.setWidth 7))
    else .error .payloadBitSet
  | _ => .error .wrongLength

/-- The payload of a limit frame: identifier, low7, high5 (30_encoding R63 format W4, R76). -/
def decodeLimitPayload : List Byte → Except DecodeError Instr
  | [i, a, b] =>
    if fitsIn 7 a && fitsIn 5 b then .ok (.frameSetLimit i (a.setWidth 7) (b.setWidth 5))
    else .error .payloadBitSet
  | _ => .error .wrongLength

/-- The payload of an opcode-only frame: none (30_encoding R63 format W1). -/
def decodeNoPayload (i : Instr) : List Byte → Except DecodeError Instr
  | [] => .ok i
  | _ :: _ => .error .wrongLength

/-- The payload of a variable query: the identifier (30_encoding R63 format W2). -/
def decodeVariablePayload : List Byte → Except DecodeError Instr
  | [v] => .ok (.frameGetVariable v)
  | _ => .error .wrongLength

/-- Reading a whole frame back (30_encoding R76): anything else is not a frame of this block. -/
def decodeFrame : List Byte → Except DecodeError Instr
  | [] => .error .empty
  | opcode :: payload =>
    if opcode = 0x83 then decodeNoPayload .frameExitSafeStart payload
    else if opcode = 0x85 then decodeSpeedPayload .frameSetSpeedForward payload
    else if opcode = 0x86 then decodeSpeedPayload .frameSetSpeedReverse payload
    else if opcode = 0xAA then decodeNoPayload .frameDetectBaudRate payload
    else if opcode = 0xA2 then decodeLimitPayload payload
    else if opcode = 0xA1 then decodeVariablePayload payload
    else .error (.unknownOpcode opcode)

/-- A response is told apart by its length alone, which the command sent decides (30_encoding R70,
41_response_decoder R110): every byte value is accepted in every position. -/
def decodeResponse : List Byte → Except DecodeError Instr
  | [] => .error .empty
  | [status] => .ok (.responseStatus status)
  | [low, high] => .ok (.responseVariable low high)
  | _ => .error .wrongLength

/-- A command word written as four bytes, low byte first, bits 31:27 zero (log 14). -/
def decodeCommandBytes (bytes : List Byte) : Except DecodeError Instr :=
  if bytes.isEmpty then .error .empty
  else if bytes.length ≠ 4 then .error .wrongLength
  else if wordOfBytes bytes < 2 ^ 27 then .ok (decodeCommand (BitVec.ofNat 27 (wordOfBytes bytes)))
  else .error .commandWordTooWide

/-- The row of a space that some bytes are, whole. -/
def decode (space : Space) (bytes : List Byte) : Except DecodeError Instr :=
  match space with
  | .frame => decodeFrame bytes
  | .response => decodeResponse bytes
  | .commandWord => decodeCommandBytes bytes

/-! ### The encoder -/

/-- The four bytes of a command word (log 14). -/
def cmdBytes (op : Op) (id : Byte) (arg : Half) : List Byte :=
  bytesOfWord 4 (cmdWord op id arg).toNat

/-- The selector and the two fields of a command row; `none` for a frame or a response row
(30_encoding R61, R62, R74). -/
def commandFields : Instr → Option (Op × Byte × Half)
  | .exitSafeStart id arg => some (0, id, arg)
  | .setMotorSpeed id speed => some (1, id, speed)
  | .setLimit limitId value => some (2, limitId, value)
  | .detectBaudRate id arg => some (3, id, arg)
  | .getVariable variableId arg => some (4, variableId, arg)
  | .reservedOp5 id arg => some (5, id, arg)
  | .reservedOp6 id arg => some (6, id, arg)
  | .reservedOp7 id arg => some (7, id, arg)
  | .setForwardLimit value => some (2, Config.limitForward, value)
  | .setReverseLimit value => some (2, Config.limitReverse, value)
  | .setDecelerationLimit value => some (2, Config.limitDeceleration, value)
  | .frameExitSafeStart => none
  | .frameSetSpeedForward _ _ => none
  | .frameSetSpeedReverse _ _ => none
  | .frameDetectBaudRate => none
  | .frameSetLimit _ _ _ => none
  | .frameGetVariable _ => none
  | .responseStatus _ => none
  | .responseVariable _ _ => none

/-- The bytes of an instruction in the order of transfer, and the space they are read in
(30_encoding R61, R63, R70, R77). -/
def encode : Instr → Space × List Byte
  | .frameExitSafeStart => (.frame, [0x83])
  | .frameSetSpeedForward low5 high7 => (.frame, [0x85, low5.setWidth 8, high7.setWidth 8])
  | .frameSetSpeedReverse low5 high7 => (.frame, [0x86, low5.setWidth 8, high7.setWidth 8])
  | .frameDetectBaudRate => (.frame, [0xAA])
  | .frameSetLimit limitId low7 high5 =>
    (.frame, [0xA2, limitId, low7.setWidth 8, high5.setWidth 8])
  | .frameGetVariable variableId => (.frame, [0xA1, variableId])
  | .responseStatus status => (.response, [status])
  | .responseVariable low high => (.response, [low, high])
  | .exitSafeStart id arg => (.commandWord, cmdBytes 0 id arg)
  | .setMotorSpeed id speed => (.commandWord, cmdBytes 1 id speed)
  | .setLimit limitId value => (.commandWord, cmdBytes 2 limitId value)
  | .detectBaudRate id arg => (.commandWord, cmdBytes 3 id arg)
  | .getVariable variableId arg => (.commandWord, cmdBytes 4 variableId arg)
  | .reservedOp5 id arg => (.commandWord, cmdBytes 5 id arg)
  | .reservedOp6 id arg => (.commandWord, cmdBytes 6 id arg)
  | .reservedOp7 id arg => (.commandWord, cmdBytes 7 id arg)
  | .setForwardLimit value => (.commandWord, cmdBytes 2 Config.limitForward value)
  | .setReverseLimit value => (.commandWord, cmdBytes 2 Config.limitReverse value)
  | .setDecelerationLimit value => (.commandWord, cmdBytes 2 Config.limitDeceleration value)

/-! ### The table's words -/

/-- The instruction of a word of the opcode table. The table's three spaces overlap and a word does
not say its space, so one is chosen: a frame where the bytes are one, else a command word where
there are four bytes, else a response. DESIGN CHOICE, log 7: the machine itself always knows the
space of the bytes it has (30_encoding R75). -/
def decodeTableWord (nbits w : Nat) : Option Instr :=
  let bytes := bytesOfWord ((nbits + 7) / 8) w
  match decode .frame bytes with
  | .ok i => some i
  | .error _ =>
    match decode (if bytes.length = 4 then .commandWord else .response) bytes with
    | .ok i => some i
    | .error _ => none

end Sys2Proof
end

