-- ==== Sys2Proof/Machine/State.lean ====
section
/-! DEFINITION. The state of the block (10_state R21), its inputs as plain data (R21, R28), and
the model's own record of the run; the result record (30_encoding R69); reset (R29). -/

namespace Sys2Proof.Machine

/-- The sequencer's phase (10_state R21, R23). -/
inductive Phase where
  /-- waits for a command -/
  | idle
  /-- offers a frame byte -/
  | tx
  /-- asks the link for a byte -/
  | rxq
  /-- one read request is outstanding -/
  | rxr
  /-- offers the result -/
  | done
  deriving DecidableEq, Repr

/-- The result kind, which is also the response class of a command (30_encoding R69,
42_command_sequencer R126). -/
inductive ResultKind where
  /-- no response expected; code 0 -/
  | none
  /-- one status byte; code 1 -/
  | status
  /-- two bytes; code 2 -/
  | variable
  /-- reserved selector; code 3 -/
  | illegal
  deriving DecidableEq, Repr

/-- The result record offered on RSP (30_encoding R69). `absent` is the field `to`: bit `i` is 1
when the link answered `None` to read `i`. -/
structure Result where
  kind : ResultKind
  absent : BitVec 2
  data : Half
  deriving DecidableEq, Repr

/-- One transfer on a channel, or a reset (10_state R21, 42_command_sequencer R132). -/
inductive Event where
  /-- CMD: the block takes a command word -/
  | cmd (cw : CmdWord)
  /-- TX: the link takes a byte -/
  | tx (b : Byte)
  /-- RX: the link takes a read request -/
  | readRequest
  /-- RX: the block takes the link's answer -/
  | readAnswer (a : Option Byte)
  /-- RSP: the host takes a result -/
  | result (r : Result)
  /-- the reset operation (70_reset_and_hazards R175) -/
  | reset
  deriving DecidableEq, Repr

/-- Why a step stops. Nothing the spec describes stops the block (60_exceptions R151, R159). -/
inductive Fault where
  /-- Raised by `step` alone, where `phase = TX` and a reserved selector is latched: 10_state R30
  says no run reaches such a state, and the encoder has no frame there (40_command_encoder R90).
  Safe: the model stops. Log 11. -/
  | noFrame
  deriving DecidableEq, Repr

/-- Why an instruction has no meaning. -/
inductive Refusal where
  /-- Raised by `exec` for a row that has no meaning yet; no row is left so. Safe. -/
  | notModelled (mnemonic : String)
  deriving DecidableEq, Repr

/-- The whole state. -/
structure State where
  /-- `phase` (10_state R21) -/
  phase : Phase
  /-- `op_q`, latched `cmd_op` (10_state R22) -/
  opQ : Op
  /-- `id_q`, latched `cmd_id` (10_state R22) -/
  idQ : Byte
  /-- `arg_q`, latched `cmd_arg` (10_state R22) -/
  argQ : Half
  /-- `tx_idx`, frame bytes taken by the link (10_state R23) -/
  txIdx : BitVec 3
  /-- `rx_idx`, read answers taken (10_state R23) -/
  rxIdx : BitVec 2
  /-- `rx_b[0]` (10_state R21) -/
  rxB0 : Byte
  /-- `rx_b[1]` (10_state R21) -/
  rxB1 : Byte
  /-- `rx_to`, the absence flags (10_state R24) -/
  rxTo : BitVec 2
  /-- input: the samples of `rst` at the coming transfer opportunities, 0 after the list's end
  (70_reset_and_hazards R175). DESIGN CHOICE, log 4 and log 6. -/
  rst : List Bool
  /-- input: the command words the host offers on CMD, in order (10_state R21). Log 4. -/
  cmdOffers : List CmdWord
  /-- input: how many more bytes the link takes on TX, `none` for no limit. Log 4. -/
  txAllow : Option Nat
  /-- input: how many more read requests the link takes, `none` for no limit. Log 4. -/
  rxqAllow : Option Nat
  /-- input: the link's answers to the coming reads (10_state R28). Log 4. -/
  rxrAnswers : List (Option Byte)
  /-- input: how many more results the host takes, `none` for no limit. Log 4. -/
  rspAllow : Option Nat
  /-- the model's own: every transfer so far, oldest first; the block never reads it. Log 13. -/
  trace : List Event
  /-- the model's own: numbers the resets, for the free values they leave. Log 2. -/
  freeCount : Nat
  deriving DecidableEq, Repr

/-- The machine right after reset (10_state R29): `phase` is IDLE. The spec leaves every other
element of the block unspecified; the zeros are a DESIGN CHOICE (log 1), the inputs' values too
(log 4): nothing is offered, no answer has come, the link and the host take what they are given. -/
def State.reset : State where
  phase := .idle
  opQ := 0
  idQ := 0
  argQ := 0
  txIdx := 0
  rxIdx := 0
  rxB0 := 0
  rxB1 := 0
  rxTo := 0
  rst := []
  cmdOffers := []
  txAllow := none
  rxqAllow := none
  rxrAnswers := []
  rspAllow := none
  trace := []
  freeCount := 0

end Sys2Proof.Machine
end

