-- ==== Sys2Proof/Machine/Operands.lean ====
section
/-! DEFINITION. The Command Encoder (40_command_encoder R90 to R101), the functions of the selector
(42_command_sequencer R126), and reading a frame back (30_encoding R76). -/

namespace Sys2Proof.Machine

/-- `Mag(arg)`, the 16-bit unsigned magnitude of a two's complement speed (40_command_encoder R90,
R101): `Mag(-32768)` is 32768. -/
def mag (arg : Half) : Half :=
  if arg.msb then BitVec.ofNat 16 ((65536 - arg.toNat) % 65536) else arg

/-- `SpeedOpcode(arg)`: 0x86 if `arg[15] = 1`, else 0x85 (40_command_encoder R90, R92). -/
def speedOpcode (arg : Half) : Byte := if arg.msb then 0x86 else 0x85

/-- `Low5(m) = m & 0x1F` (40_command_encoder R90, 30_encoding R66). -/
def low5 (m : Half) : Byte := (m &&& 0x1F).setWidth 8

/-- `High7(m) = (m >> 5) & 0x7F` (40_command_encoder R90, 30_encoding R66). -/
def high7 (m : Half) : Byte := ((m >>> 5) &&& 0x7F).setWidth 8

/-- `Low7(v) = v & 0x7F` (40_command_encoder R90, 30_encoding R67). -/
def low7 (v : Half) : Byte := (v &&& 0x7F).setWidth 8

/-- `High5(v) = (v >> 7) & 0x1F` (40_command_encoder R90, 30_encoding R67). -/
def high5 (v : Half) : Byte := ((v >>> 7) &&& 0x1F).setWidth 8

/-- `Frame(0, -, -)` (40_command_encoder R91). -/
def exitSafeStartFrame : List Byte := [0x83]

/-- `Frame(1, -, arg)` (40_command_encoder R92 to R94). -/
def motorSpeedFrame (arg : Half) : List Byte :=
  [speedOpcode arg, low5 (mag arg), high7 (mag arg)]

/-- `Frame(2, id, arg)` (40_command_encoder R95). -/
def limitFrame (id : Byte) (arg : Half) : List Byte := [0xA2, id, low7 arg, high5 arg]

/-- `Frame(3, -, -)` (40_command_encoder R96). -/
def detectBaudRateFrame : List Byte := [0xAA]

/-- `Frame(4, id, -)` (40_command_encoder R97). -/
def variableFrame (id : Byte) : List Byte := [0xA1, id]

/-- `Frame(op, id, arg)` (40_command_encoder R90). The encoder is not used for `op` 5 to 7: no
byte (30_encoding R71). -/
def frameOf (op : Op) (id : Byte) (arg : Half) : List Byte :=
  match op.toNat with
  | 0 => exitSafeStartFrame
  | 1 => motorSpeedFrame arg
  | 2 => limitFrame id arg
  | 3 => detectBaudRateFrame
  | 4 => variableFrame id
  | _ => []

/-- `tx_len(op)` (40_command_encoder R90, 42_command_sequencer R126). -/
def txLen (op : Op) : Nat :=
  match op.toNat with
  | 0 => 1
  | 1 => 3
  | 2 => 4
  | 3 => 1
  | 4 => 2
  | _ => 0

/-- The response class of a command, a function of the selector alone (42_command_sequencer R126). -/
def responseClass (op : Op) : ResultKind :=
  match op.toNat with
  | 0 => .none
  | 1 => .none
  | 2 => .status
  | 3 => .none
  | 4 => .variable
  | _ => .illegal

/-- `rx_need(op)` (42_command_sequencer R126). -/
def rxNeed (op : Op) : Nat :=
  match responseClass op with
  | .none => 0
  | .status => 1
  | .variable => 2
  | .illegal => 0

/-- `decode_magnitude(low5, high7) = low5 + 32 * high7` (30_encoding R76). -/
def decodeMagnitude (a b : Byte) : Nat := a.toNat + 32 * b.toNat

/-- The value a limit frame carries, `low7 + 128 * high5` (30_encoding R67, R76). -/
def decodeLimit (a b : Byte) : Nat := a.toNat + 128 * b.toNat

/-! ### Reading a frame back (30_encoding R76) -/

/-- What a frame says and what a command asks for: the tagged variant of 30_encoding R60, R62, with
the speed signed and the numbers unbounded, so that reading back narrows nothing (30_encoding
R76). -/
inductive ProtocolCommand where
  | exitSafeStart
  /-- `set_motor_speed`, negative in reverse -/
  | setMotorSpeed (speed : Int)
  | setLimit (limitId : Byte) (value : Nat)
  | detectBaudRate
  | getVariable (variableId : Byte)
  deriving DecidableEq, Repr

/-- The command a frame row says: its numeric fields put together, a reverse frame negative.
`[0x86, 0, 0]` says speed 0. No command for a row that is no frame. -/
def commandOfRow : Instr → Option ProtocolCommand
  | .frameExitSafeStart => some .exitSafeStart
  | .frameSetSpeedForward low5 high7 =>
    some (.setMotorSpeed (decodeMagnitude (low5.setWidth 8) (high7.setWidth 8)))
  | .frameSetSpeedReverse low5 high7 =>
    some (.setMotorSpeed (-(decodeMagnitude (low5.setWidth 8) (high7.setWidth 8) : Int)))
  | .frameDetectBaudRate => some .detectBaudRate
  | .frameSetLimit limitId low7 high5 =>
    some (.setLimit limitId (decodeLimit (low7.setWidth 8) (high5.setWidth 8)))
  | .frameGetVariable variableId => some (.getVariable variableId)
  | .responseStatus _ => none
  | .responseVariable _ _ => none
  | .exitSafeStart _ _ => none
  | .setMotorSpeed _ _ => none
  | .setLimit _ _ => none
  | .detectBaudRate _ _ => none
  | .getVariable _ _ => none
  | .reservedOp5 _ _ => none
  | .reservedOp6 _ _ => none
  | .reservedOp7 _ _ => none
  | .setForwardLimit _ => none
  | .setReverseLimit _ => none
  | .setDecelerationLimit _ => none

/-- The inverse map of 30_encoding R76: the command a byte sequence says; `none` where it is not a
frame of this block. -/
def readFrame (f : List Byte) : Option ProtocolCommand :=
  match decodeFrame f with
  | .ok i => commandOfRow i
  | .error _ => none

/-- The command that latched operands ask for: the speed signed, the value unsigned, the ignored
fields left out; a reserved selector names none (30_encoding R61, R62, R71). -/
def commandOf (op : Op) (id : Byte) (arg : Half) : Option ProtocolCommand :=
  match op.toNat with
  | 0 => some .exitSafeStart
  | 1 => some (.setMotorSpeed arg.toInt)
  | 2 => some (.setLimit id arg.toNat)
  | 3 => some .detectBaudRate
  | 4 => some (.getVariable id)
  | _ => none

end Sys2Proof.Machine
end

