-- ==== Sys2Proof/Machine/Flags.lean ====
section
/-! DEFINITION. The two absence flags (10_state R24) and the Response Decoder
(41_response_decoder R110 to R117), with the result record's word (30_encoding R69). The
sentinel is an argument throughout. -/

namespace Sys2Proof.Machine

/-- `Sub(a)`: the byte, or the sentinel where there is none (41_response_decoder R110, R113). -/
def sub (sentinel : Byte) (a : Option Byte) : Byte := a.getD sentinel

/-- `To(a)`: 1 where the link answered `None` (41_response_decoder R110). -/
def absentBit (a : Option Byte) : Bool := a.isNone

/-- `rx_to` with bit `i` written (42_command_sequencer R130); only bits 0 and 1 exist. -/
def setFlag (flags : BitVec 2) (i : BitVec 2) (b : Bool) : BitVec 2 :=
  match i.toNat with
  | 0 => BitVec.ofBool (flags.getLsbD 1) ++ BitVec.ofBool b
  | 1 => BitVec.ofBool b ++ BitVec.ofBool (flags.getLsbD 0)
  | _ => flags

/-- `{to[1], to[0]}`. -/
def flagPair (to1 to0 : Bool) : BitVec 2 := BitVec.ofBool to1 ++ BitVec.ofBool to0

/-- `byte0 + 256 * byte1`, low byte first (41_response_decoder R112, R115). -/
def assemble (b0 b1 : Byte) : Half := b0.setWidth 16 + 256 * b1.setWidth 16

/-- `{NONE, 00b, 0x0000}` (42_command_sequencer R131). -/
def noneResult : Result := ⟨.none, 0, 0⟩

/-- `{ILLEGAL, 00b, 0x0000}` (42_command_sequencer R131, R139). -/
def illegalResult : Result := ⟨.illegal, 0, 0⟩

/-- A STATUS record from the byte held and its flag (42_command_sequencer R131). -/
def statusResult (to0 : Bool) (b0 : Byte) : Result := ⟨.status, flagPair false to0, b0.setWidth 16⟩

/-- A VARIABLE record from the bytes held and the flags (42_command_sequencer R131). -/
def variableResult (flags : BitVec 2) (b0 b1 : Byte) : Result := ⟨.variable, flags, assemble b0 b1⟩

/-- `DecodeStatus(a0)` (41_response_decoder R110, R111). -/
def decodeStatus (sentinel : Byte) (a0 : Option Byte) : Result :=
  statusResult (absentBit a0) (sub sentinel a0)

/-- `DecodeVariable(a0, a1)` (41_response_decoder R110, R112). -/
def decodeVariable (sentinel : Byte) (a0 a1 : Option Byte) : Result :=
  variableResult (flagPair (absentBit a1) (absentBit a0)) (sub sentinel a0) (sub sentinel a1)

/-- The code of a result kind (30_encoding R69). -/
def kindCode : ResultKind → BitVec 2
  | .none => 0
  | .status => 1
  | .variable => 2
  | .illegal => 3

/-- `RR = {kind, to, data}` (30_encoding R69). -/
def resultWord (r : Result) : ResultWord := kindCode r.kind ++ r.absent ++ r.data

end Sys2Proof.Machine
end

