-- ==== Sys2Proof/Machine/Ops.lean ====
section
/-! DEFINITION. The signals (10_state R21), the five transfers of the sequencer
(42_command_sequencer R127 to R131), reset (70_reset_and_hazards R175), and the runs of transfers
that the instructions are made of. There is no exception entry or return to model (60_exceptions
R159, R160): an error is a flag of the result, set by `receive`. -/

namespace Sys2Proof.Machine

/-! ### Signals -/

/-- Whether an agent that takes `n` more transfers (`none`: any number) takes one. -/
def allows : Option Nat → Bool
  | none => true
  | some n => decide (0 < n)

/-- What is left of an allowance after `n` transfers. -/
def spend (n : Nat) (allowance : Option Nat) : Option Nat := allowance.map (· - n)

/-- `cmd_ready`: 1 exactly when `phase = IDLE` (10_state R21). -/
def State.cmdReady (s : State) : Bool := s.phase == .idle
/-- `tx_valid`: 1 exactly when `phase = TX` (10_state R21). -/
def State.txValid (s : State) : Bool := s.phase == .tx
/-- `rxq_valid`: 1 exactly when `phase = RXQ` (10_state R21). -/
def State.rxqValid (s : State) : Bool := s.phase == .rxq
/-- `rxr_ready`: 1 exactly when `phase = RXR` (10_state R21). -/
def State.rxrReady (s : State) : Bool := s.phase == .rxr
/-- `rsp_valid`: 1 exactly when `phase = DONE` (10_state R21). -/
def State.rspValid (s : State) : Bool := s.phase == .done

/-- `cmd_valid` and the word offered on CMD (10_state R21). -/
def State.cmdOffered (s : State) : Option CmdWord := s.cmdOffers.head?
/-- `tx_ready` (10_state R21). -/
def State.txReady (s : State) : Bool := allows s.txAllow
/-- `rxq_ready` (10_state R21). -/
def State.rxqReady (s : State) : Bool := allows s.rxqAllow
/-- `rxr_valid` and the answer, `rxr_some` and `rxr_data` (10_state R21). -/
def State.answerOffered (s : State) : Option (Option Byte) := s.rxrAnswers.head?
/-- `rsp_ready` (10_state R21). -/
def State.rspReady (s : State) : Bool := allows s.rspAllow

/-- The frame of the latched command (10_state R21, 20_memory R53). -/
def State.currentFrame (s : State) : List Byte := frameOf s.opQ s.idQ s.argQ

/-- `tx_data` while `tx_valid` is 1 (42_command_sequencer R128). -/
def State.txData (s : State) : Option Byte := s.currentFrame[s.txIdx.toNat]?

/-- `rsp_kind`, `rsp_to`, `rsp_data` while `rsp_valid` is 1 (42_command_sequencer R131). -/
def State.rspRecord (s : State) : Result :=
  match responseClass s.opQ with
  | .none => noneResult
  | .status => statusResult (s.rxTo.getLsbD 0) s.rxB0
  | .variable => variableResult s.rxTo s.rxB0 s.rxB1
  | .illegal => illegalResult

/-! ### What each transfer writes -/

/-- The writes of ACCEPT (42_command_sequencer R127). -/
def State.accepted (s : State) (op : Op) (id : Byte) (arg : Half) : State :=
  { s with
    phase := if op.toNat ≤ 4 then .tx else .done
    opQ := op
    idQ := id
    argQ := arg
    txIdx := 0
    rxIdx := 0
    rxTo := 0
    cmdOffers := s.cmdOffers.tail
    trace := s.trace ++ [.cmd (cmdWord op id arg)] }

/-- The writes of SEND: byte `b` of a frame of `len` bytes is taken (42_command_sequencer R128). -/
def State.sent (s : State) (len : Nat) (b : Byte) : State :=
  { s with
    phase := if s.txIdx.toNat + 1 = len then (if rxNeed s.opQ = 0 then .done else .rxq) else s.phase
    txIdx := s.txIdx + 1
    txAllow := spend 1 s.txAllow
    trace := s.trace ++ [.tx b] }

/-- The writes of REQ (42_command_sequencer R129). -/
def State.requested (s : State) : State :=
  { s with
    phase := .rxr
    rxqAllow := spend 1 s.rxqAllow
    trace := s.trace ++ [.readRequest] }

/-- The writes of RECV for the answer `a` (42_command_sequencer R130). -/
def State.received (s : State) (a : Option Byte) : State :=
  { s with
    phase := if s.rxIdx.toNat + 1 = rxNeed s.opQ then .done else .rxq
    rxIdx := s.rxIdx + 1
    rxB0 := if s.rxIdx.toNat = 0 then sub Config.sentinelByte a else s.rxB0
    rxB1 := if s.rxIdx.toNat = 1 then sub Config.sentinelByte a else s.rxB1
    rxTo := setFlag s.rxTo s.rxIdx (absentBit a)
    rxrAnswers := s.rxrAnswers.tail
    trace := s.trace ++ [.readAnswer a] }

/-- The writes of DELIVER (42_command_sequencer R131). -/
def State.delivered (s : State) : State :=
  { s with
    phase := .idle
    rspAllow := spend 1 s.rspAllow
    trace := s.trace ++ [.result s.rspRecord] }

/-- The reset operation (70_reset_and_hazards R175): `phase` becomes IDLE and every other state
element of the block unspecified, a free value (log 2). Nothing is written to the link, read or
delivered, and the link keeps what it has (R176, R183; log 18). -/
def State.resetDone (s : State) : State :=
  { s with
    phase := .idle
    opQ := Config.resetOpQ s.freeCount
    idQ := Config.resetIdQ s.freeCount
    argQ := Config.resetArgQ s.freeCount
    txIdx := Config.resetTxIdx s.freeCount
    rxIdx := Config.resetRxIdx s.freeCount
    rxB0 := Config.resetRxB0 s.freeCount
    rxB1 := Config.resetRxB1 s.freeCount
    rxTo := Config.resetRxTo s.freeCount
    trace := s.trace ++ [.reset]
    freeCount := s.freeCount + 1 }

/-- Two of the inputs move on: one sample of `rst` has been read. -/
def State.rstRead (s : State) : State := { s with rst := s.rst.tail }

/-! ### The transfers, each enabled as the spec says; one that is not enabled waits -/

/-- ACCEPT (42_command_sequencer R127); the caller has seen the command offered. -/
def accept (op : Op) (id : Byte) (arg : Half) (s : State) : State :=
  if s.phase = .idle then s.accepted op id arg else s

/-- SEND of the next byte of frame `f` (42_command_sequencer R128). Beyond the frame's end the step
is never enabled (10_state R23, R30; log 11). -/
def send (f : List Byte) (s : State) : State :=
  if s.phase = .tx ∧ s.txReady then
    match f[s.txIdx.toNat]? with
    | some b => s.sent f.length b
    | none => s
  else s

/-- REQ (42_command_sequencer R129). -/
def request (s : State) : State :=
  if s.phase = .rxq ∧ s.rxqReady then s.requested else s

/-- RECV of the answer `a` (42_command_sequencer R130). There is no third byte to receive
(10_state R23, R30; log 11). -/
def receive (a : Option Byte) (s : State) : State :=
  if s.phase = .rxr ∧ s.rxIdx.toNat < 2 then s.received a else s

/-- DELIVER (42_command_sequencer R131). -/
def deliver (s : State) : State :=
  if s.phase = .done ∧ s.rspReady then s.delivered else s

/-- A transfer opportunity: `rst` is sampled and, where it is 1, the reset takes the transfer's
place (70_reset_and_hazards R175; log 6). -/
def opportunity (transfer : State → State) (s : State) : State :=
  if s.rst.headD false then s.rstRead.resetDone else transfer s.rstRead

/-- The one transfer the phase admits (42_command_sequencer R127 to R131). -/
def transferOf (s : State) : State :=
  match s.phase with
  | .idle =>
    match s.cmdOffered with
    | some cw => accept (cmdOp cw) (cmdId cw) (cmdArg cw) s
    | none => s
  | .tx => send s.currentFrame s
  | .rxq => request s
  | .rxr =>
    match s.answerOffered with
    | some a => receive a s
    | none => s
  | .done => deliver s

/-- The small-step machine: one transfer opportunity of the block (00_scope R7). The instructions
are runs of it, as 42_command_sequencer R132 asks. -/
def clockStep (s : State) : State := opportunity transferOf s

/-! ### Runs of transfers -/

/-- `f`, `n` times. -/
def times : Nat → (State → State) → State → State
  | 0, _, s => s
  | n + 1, f, s => times n f (f s)

/-- One SEND opportunity, while a frame is being sent. -/
def sendNext (f : List Byte) (s : State) : State :=
  if s.phase = .tx then opportunity (send f) s else s

/-- What is left of frame `f` goes to the link, as far as the link takes it: no frame has more than
four bytes (20_memory R48, 42_command_sequencer R125). -/
def sendFrame (f : List Byte) (s : State) : State := times 4 (sendNext f) s

/-- The request half of a read, where none is outstanding (42_command_sequencer R129). -/
def requestNext (s : State) : State :=
  if s.phase = .rxq then opportunity request s else s

/-- The answer half of a read with the answer given (42_command_sequencer R130). -/
def receiveNext (a : Option Byte) (s : State) : State :=
  if s.phase = .rxr then opportunity (receive a) s else s

/-- The answer half of a read with the link's next answer; without one the block waits
(42_command_sequencer R143). -/
def receiveOffered (s : State) : State :=
  match s.answerOffered with
  | some a => receiveNext a s
  | none => if s.phase = .rxr then opportunity id s else s

/-- `RxRead()` answered with `a` (00_scope R11). -/
def readWith (a : Option Byte) (s : State) : State := receiveNext a (requestNext s)

/-- `RxRead()` with whatever the link answers next (00_scope R11). -/
def readNext (s : State) : State := receiveOffered (requestNext s)

/-- The reads the latched command still needs: at most two (41_response_decoder R116). -/
def readResponse (s : State) : State := times 2 readNext s

/-- `Deliver(r)`, where a result is offered (42_command_sequencer R131). -/
def deliverResult (s : State) : State :=
  if s.phase = .done then opportunity deliver s else s

/-- The whole operation of a command (42_command_sequencer R125, R132): ACCEPT, the frame, the
reads, DELIVER. It goes as far as the link and the host take part; what is left waits for a later
step (R143). A command met while the block is busy waits unchanged (R141; log 12). -/
def runCommand (op : Op) (id : Byte) (arg : Half) (s : State) : State :=
  if s.phase = .idle then
    deliverResult (readResponse (sendFrame (frameOf op id arg) (opportunity (accept op id arg) s)))
  else s

/-! ### The big-step function of the spec, and the streams of a run -/

/-- What one command does: the TX bytes in order, the number of reads, the result. -/
structure Execution where
  writes : List Byte
  reads : Nat
  result : Result
  deriving DecidableEq, Repr

/-- `Exec(cmd, ans)` (42_command_sequencer R132), `SENTINEL_BYTE` as an argument. An answer the list
does not hold counts as `None`; the rule is about lists of `rx_need(op)` answers. -/
def bigStep (sentinel : Byte) (op : Op) (id : Byte) (arg : Half) (ans : List (Option Byte)) :
    Execution where
  writes := frameOf op id arg
  reads := rxNeed op
  result :=
    match responseClass op with
    | .none => noneResult
    | .status => decodeStatus sentinel (ans.getD 0 none)
    | .variable => decodeVariable sentinel (ans.getD 0 none) (ans.getD 1 none)
    | .illegal => illegalResult

/-- The TX stream of a run: the bytes the link has taken (70_reset_and_hazards R190). -/
def txStream (trace : List Event) : List Byte :=
  trace.filterMap fun
    | .tx b => some b
    | _ => none

/-- The results the host has taken (70_reset_and_hazards R190). -/
def resultStream (trace : List Event) : List Result :=
  trace.filterMap fun
    | .result r => some r
    | _ => none

/-- How many read requests the link has taken (41_response_decoder R116). -/
def readCount (trace : List Event) : Nat := trace.countP (· == .readRequest)

/-- The read transfers that answer with `answers` (42_command_sequencer R132). -/
def readEvents (answers : List (Option Byte)) : List Event :=
  answers.flatMap fun a => [.readRequest, .readAnswer a]

/-- The trace of one command (42_command_sequencer R132): one CMD transfer, the TX transfers, the
pairs of read transfers, one RSP transfer. -/
def commandTrace (sentinel : Byte) (op : Op) (id : Byte) (arg : Half) (ans : List (Option Byte)) :
    List Event :=
  .cmd (cmdWord op id arg) :: (frameOf op id arg).map .tx ++ readEvents (ans.take (rxNeed op))
    ++ [.result (bigStep sentinel op id arg ans).result]

end Sys2Proof.Machine
end

