-- ==== Sys2Proof/Machine/Commands.lean ====
section
/-! DEFINITION. The meanings of the command-word rows: each is the whole operation of its command
(42_command_sequencer R125, R132 to R139). No operand is validated (40_command_encoder R99) and
nothing is refused. -/

namespace Sys2Proof.Machine

/-- `exit_safe_start` (40_command_encoder R91, 42_command_sequencer R137). -/
def execExitSafeStart (id : Byte) (arg : Half) (s : State) : Host.Outcome State Fault Refusal :=
  .next (runCommand 0 id arg s)

/-- `set_motor_speed` (40_command_encoder R92, 42_command_sequencer R137). -/
def execSetMotorSpeed (id : Byte) (speed : Half) (s : State) :
    Host.Outcome State Fault Refusal :=
  .next (runCommand 1 id speed s)

/-- `set_limit` (40_command_encoder R95, 41_response_decoder R111). -/
def execSetLimit (limitId : Byte) (value : Half) (s : State) :
    Host.Outcome State Fault Refusal :=
  .next (runCommand 2 limitId value s)

/-- `detect_baud_rate` (40_command_encoder R96, 42_command_sequencer R137). -/
def execDetectBaudRate (id : Byte) (arg : Half) (s : State) : Host.Outcome State Fault Refusal :=
  .next (runCommand 3 id arg s)

/-- `get_variable` (40_command_encoder R97, 42_command_sequencer R136). -/
def execGetVariable (variableId : Byte) (arg : Half) (s : State) :
    Host.Outcome State Fault Refusal :=
  .next (runCommand 4 variableId arg s)

/-- Reserved selector 5: taken, nothing written or read, ILLEGAL (42_command_sequencer R139). -/
def execReservedOp5 (id : Byte) (arg : Half) (s : State) : Host.Outcome State Fault Refusal :=
  .next (runCommand 5 id arg s)

/-- Reserved selector 6 (42_command_sequencer R139). -/
def execReservedOp6 (id : Byte) (arg : Half) (s : State) : Host.Outcome State Fault Refusal :=
  .next (runCommand 6 id arg s)

/-- Reserved selector 7 (42_command_sequencer R139). -/
def execReservedOp7 (id : Byte) (arg : Half) (s : State) : Host.Outcome State Fault Refusal :=
  .next (runCommand 7 id arg s)

/-- `set_forward_limit value` is `set_limit 5, value` (42_command_sequencer R133). -/
def execSetForwardLimit (value : Half) (s : State) : Host.Outcome State Fault Refusal :=
  .next (runCommand 2 Config.limitForward value s)

/-- `set_reverse_limit value` is `set_limit 9, value` (42_command_sequencer R134). -/
def execSetReverseLimit (value : Half) (s : State) : Host.Outcome State Fault Refusal :=
  .next (runCommand 2 Config.limitReverse value s)

/-- `set_deceleration_limit value` is `set_limit 2, value` (42_command_sequencer R135). -/
def execSetDecelerationLimit (value : Half) (s : State) : Host.Outcome State Fault Refusal :=
  .next (runCommand 2 Config.limitDeceleration value s)

end Sys2Proof.Machine
end

