-- ==== Sys2Proof/Machine/Frames.lean ====
section
/-! DEFINITION. The meanings of the frame rows: the block writes the bytes of the frame that it has
not yet written (42_command_sequencer R128), one transfer a byte, opcode first (20_memory R48).
Outside `phase = TX` the block offers no byte and nothing happens (10_state R21; log 9). -/

namespace Sys2Proof.Machine

/-- `EXIT_SAFE_START` (30_encoding R63 format W1, 40_command_encoder R91). -/
def execFrameExitSafeStart (s : State) : Host.Outcome State Fault Refusal :=
  .next (sendFrame [0x83] s)

/-- `SET_SPEED_FORWARD` (30_encoding R63 format W3, 40_command_encoder R93). -/
def execFrameSetSpeedForward (low5 : BitVec 5) (high7 : BitVec 7) (s : State) :
    Host.Outcome State Fault Refusal :=
  .next (sendFrame [0x85, low5.setWidth 8, high7.setWidth 8] s)

/-- `SET_SPEED_REVERSE` (30_encoding R63 format W3, 40_command_encoder R94). -/
def execFrameSetSpeedReverse (low5 : BitVec 5) (high7 : BitVec 7) (s : State) :
    Host.Outcome State Fault Refusal :=
  .next (sendFrame [0x86, low5.setWidth 8, high7.setWidth 8] s)

/-- `DETECT_BAUD_RATE` (30_encoding R63 format W1, 40_command_encoder R96). -/
def execFrameDetectBaudRate (s : State) : Host.Outcome State Fault Refusal :=
  .next (sendFrame [0xAA] s)

/-- `SET_LIMIT` (30_encoding R63 format W4, 40_command_encoder R95). -/
def execFrameSetLimit (limitId : Byte) (low7 : BitVec 7) (high5 : BitVec 5) (s : State) :
    Host.Outcome State Fault Refusal :=
  .next (sendFrame [0xA2, limitId, low7.setWidth 8, high5.setWidth 8] s)

/-- `GET_VARIABLE` (30_encoding R63 format W2, 40_command_encoder R97). -/
def execFrameGetVariable (variableId : Byte) (s : State) : Host.Outcome State Fault Refusal :=
  .next (sendFrame [0xA1, variableId] s)

end Sys2Proof.Machine
end

