-- ==== Sys2Proof/Machine/Responses.lean ====
section
/-! DEFINITION. The meanings of the response rows: the reads of the latched command are answered
with the row's bytes (41_response_decoder R111, R112). Outside `phase = RXQ` and `RXR` the block
does not look at RX (42_command_sequencer R137; log 10). An absent byte is no row: the sequencer's
own reads take it (`readResponse`). -/

namespace Sys2Proof.Machine

/-- `RS1`, `read_status_byte` with `a0 = Some(status)` (41_response_decoder R111). -/
def execResponseStatus (status : Byte) (s : State) : Host.Outcome State Fault Refusal :=
  .next (readWith (some status) s)

/-- `RV2`, `read_variable` with both bytes, low byte first (41_response_decoder R112). -/
def execResponseVariable (valueLow valueHigh : Byte) (s : State) :
    Host.Outcome State Fault Refusal :=
  .next (readWith (some valueHigh) (readWith (some valueLow) s))

end Sys2Proof.Machine
end

