-- ==== Sys2Proof/Machine/Dispatch.lean ====
section
/-! DEFINITION. One arm for each row of the opcode table. -/

namespace Sys2Proof.Machine

def exec (i : Instr) (s : State) : Host.Outcome State Fault Refusal :=
  match i with
  | .frameExitSafeStart => Sys2Proof.Machine.execFrameExitSafeStart s
  | .frameSetSpeedForward low5 high7 => Sys2Proof.Machine.execFrameSetSpeedForward low5 high7 s
  | .frameSetSpeedReverse low5 high7 => Sys2Proof.Machine.execFrameSetSpeedReverse low5 high7 s
  | .frameDetectBaudRate => Sys2Proof.Machine.execFrameDetectBaudRate s
  | .frameSetLimit limitId low7 high5 => Sys2Proof.Machine.execFrameSetLimit limitId low7 high5 s
  | .frameGetVariable variableId => Sys2Proof.Machine.execFrameGetVariable variableId s
  | .responseStatus status => Sys2Proof.Machine.execResponseStatus status s
  | .responseVariable valueLow valueHigh => Sys2Proof.Machine.execResponseVariable valueLow valueHigh s
  | .exitSafeStart id arg => Sys2Proof.Machine.execExitSafeStart id arg s
  | .setMotorSpeed id speed => Sys2Proof.Machine.execSetMotorSpeed id speed s
  | .setLimit limitId value => Sys2Proof.Machine.execSetLimit limitId value s
  | .detectBaudRate id arg => Sys2Proof.Machine.execDetectBaudRate id arg s
  | .getVariable variableId arg => Sys2Proof.Machine.execGetVariable variableId arg s
  | .reservedOp5 id arg => Sys2Proof.Machine.execReservedOp5 id arg s
  | .reservedOp6 id arg => Sys2Proof.Machine.execReservedOp6 id arg s
  | .reservedOp7 id arg => Sys2Proof.Machine.execReservedOp7 id arg s
  | .setForwardLimit value => Sys2Proof.Machine.execSetForwardLimit value s
  | .setReverseLimit value => Sys2Proof.Machine.execSetReverseLimit value s
  | .setDecelerationLimit value => Sys2Proof.Machine.execSetDecelerationLimit value s

end Sys2Proof.Machine
end

