-- ==== Sys2Proof/Machine/Fetch.lean ====
section
/-! DEFINITION. What the block does next: the stand-in for instruction fetch (10_state R23: the
position is the phase with the two indices), and where an instruction is put so that the next step
runs it. -/

namespace Sys2Proof.Machine

/-- What the next step is about. -/
inductive Fetched where
  /-- a row of the opcode table -/
  | instr (i : Instr)
  /-- no command is offered: the block waits in IDLE (42_command_sequencer R143) -/
  | noCommand
  /-- reads whose answers are not a whole response: an absent byte, an answer not yet come, or the
  rest of a response begun before -/
  | reads
  /-- a result to deliver -/
  | delivery
  /-- `phase = TX` with a reserved selector: no frame (10_state R30; log 11) -/
  | nothing
  deriving DecidableEq, Repr

/-- The bytes of the whole response the link is about to give to a command of this class, from the
first read on; `none` where a byte is absent or has not come. -/
def wholeResponse (cls : ResultKind) (answers : List (Option Byte)) : Option (List Byte) :=
  match cls, answers with
  | .status, some b :: _ => some [b]
  | .variable, some b0 :: some b1 :: _ => some [b0, b1]
  | _, _ => none

/-- A response about to be read from its first byte is a row; anything else is plain reads. -/
def fetchResponse (s : State) : Fetched :=
  if s.rxIdx = 0 then
    match wholeResponse (responseClass s.opQ) s.rxrAnswers with
    | some bytes =>
      match decodeResponse bytes with
      | .ok i => .instr i
      | .error _ => .reads
    | none => .reads
  else .reads

/-- What stands at the block's position (10_state R23): in IDLE the command offered, in TX the
frame of the latched command, in RXQ and RXR the response, in DONE the result. -/
def fetch (s : State) : Fetched :=
  match s.phase with
  | .idle =>
    match s.cmdOffered with
    | some cw => .instr (decodeCommand cw)
    | none => .noCommand
  | .tx =>
    match decodeFrame s.currentFrame with
    | .ok i => .instr i
    | .error _ => .nothing
  | .rxq => fetchResponse s
  | .rxr => fetchResponse s
  | .done => .delivery

/-! ### Placing an instruction -/

/-- A command is placed by the host's offering its word on CMD to a block in IDLE. -/
def placeCommand (op : Op) (id : Byte) (arg : Half) (s : State) : State :=
  { s with phase := .idle, rst := [], cmdOffers := cmdWord op id arg :: s.cmdOffers }

/-- A frame is placed by latching a command that has it, no byte of it sent (log 16). -/
def placeFrame (op : Op) (id : Byte) (arg : Half) (s : State) : State :=
  { s with phase := .tx, rst := [], opQ := op, idQ := id, argQ := arg, txIdx := 0, rxIdx := 0, rxTo := 0 }

/-- A response is placed by the link's having it ready when the first read of its command comes. -/
def placeResponse (op : Op) (bytes : List Byte) (s : State) : State :=
  { s with
    phase := .rxq, rst := [], opQ := op, txIdx := BitVec.ofNat 3 (txLen op), rxIdx := 0, rxTo := 0
    rxrAnswers := bytes.map some ++ s.rxrAnswers }

/-- The magnitude a speed frame carries (30_encoding R76). -/
def magnitudeOf (low5 : BitVec 5) (high7 : BitVec 7) : Half := low5.setWidth 16 + 32 * high7.setWidth 16

/-- A speed to latch so that the block sends the reverse frame of magnitude `m`: `-m`, but -4096 for
0, since no in-domain speed has the frame `[0x86, 0, 0]` (40_command_encoder R92; log 16). It places
a frame; what a frame says is `readFrame`, which gives 0 there (30_encoding R76). -/
def reverseSpeed (m : Half) : Half := if m = 0 then 0xF000 else -m

/-- The value a limit frame carries (30_encoding R76). -/
def limitValueOf (low7 : BitVec 7) (high5 : BitVec 5) : Half := low7.setWidth 16 + 128 * high5.setWidth 16

/-- The state with instruction `i` where the next step fetches. -/
def placeInstr (i : Instr) (s : State) : State :=
  match i with
  | .frameExitSafeStart => placeFrame 0 s.idQ s.argQ s
  | .frameSetSpeedForward low5 high7 => placeFrame 1 s.idQ (magnitudeOf low5 high7) s
  | .frameSetSpeedReverse low5 high7 => placeFrame 1 s.idQ (reverseSpeed (magnitudeOf low5 high7)) s
  | .frameDetectBaudRate => placeFrame 3 s.idQ s.argQ s
  | .frameSetLimit limitId low7 high5 => placeFrame 2 limitId (limitValueOf low7 high5) s
  | .frameGetVariable variableId => placeFrame 4 variableId s.argQ s
  | .responseStatus status => placeResponse 2 [status] s
  | .responseVariable valueLow valueHigh => placeResponse 4 [valueLow, valueHigh] s
  | .exitSafeStart id arg => placeCommand 0 id arg s
  | .setMotorSpeed id speed => placeCommand 1 id speed s
  | .setLimit limitId value => placeCommand 2 limitId value s
  | .detectBaudRate id arg => placeCommand 3 id arg s
  | .getVariable variableId arg => placeCommand 4 variableId arg s
  | .reservedOp5 id arg => placeCommand 5 id arg s
  | .reservedOp6 id arg => placeCommand 6 id arg s
  | .reservedOp7 id arg => placeCommand 7 id arg s
  | .setForwardLimit value => placeCommand 2 Config.limitForward value s
  | .setReverseLimit value => placeCommand 2 Config.limitReverse value s
  | .setDecelerationLimit value => placeCommand 2 Config.limitDeceleration value s

end Sys2Proof.Machine
end

