-- ==== Sys2Proof/Machine/Step.lean ====
section
/-! DEFINITION. One step: the instruction at the block's position, or the part of the sequence that
is no row of the table (waiting, a response with an absent byte, delivery). -/

namespace Sys2Proof.Machine

/-- One step of the machine (42_command_sequencer R132, R143). -/
def step (s : State) : Host.Outcome State Fault Refusal :=
  match fetch s with
  | .instr i => exec i s
  | .noCommand => .next (opportunity id s)
  | .reads => .next (readResponse s)
  | .delivery => .next (deliverResult s)
  | .nothing => .fault .noFrame

/-- `s` with the table word placed where `step` fetches (log 5, log 7); `s` where no row has the
word. -/
def State.withFetchWord (s : State) (nbits w : Nat) : State :=
  match decodeTableWord nbits w with
  | some i => placeInstr i s
  | none => s

end Sys2Proof.Machine
end

