-- ==== Sys2Proof/Safety.lean ====
section
/-! DEFINITION. What a good state and a good run are, in the terms the claims use: the invariants
of 10_state R30 and R24, what "gone wrong" is (60_exceptions R169), and the obligations of the
host, the link and what stands around them (70_reset_and_hazards R177 to R189). -/

namespace Sys2Proof.Machine

/-- The invariants of 10_state R30. That exactly one read request is outstanding in RXR is what the
phase RXR means (42_command_sequencer R129). -/
def State.sequenceInv (s : State) : Bool :=
  match s.phase with
  | .idle => true
  | .tx => decide (s.opQ.toNat ≤ 4) && decide (s.txIdx.toNat < txLen s.opQ) && s.rxIdx == 0 && s.rxTo == 0
  | .rxq => (s.opQ == 2 || s.opQ == 4) && decide (s.txIdx.toNat = txLen s.opQ) && decide (s.rxIdx.toNat < rxNeed s.opQ)
  | .rxr => (s.opQ == 2 || s.opQ == 4) && decide (s.txIdx.toNat = txLen s.opQ) && decide (s.rxIdx.toNat < rxNeed s.opQ)
  | .done =>
    (decide (5 ≤ s.opQ.toNat) && s.txIdx == 0 && s.rxIdx == 0)
      || (decide (s.opQ.toNat ≤ 4) && decide (s.txIdx.toNat = txLen s.opQ)
        && decide (s.rxIdx.toNat = rxNeed s.opQ))

/-- A set absence flag belongs to a read already answered, and the byte it belongs to holds the
sentinel (10_state R24, 60_exceptions R153); says nothing in IDLE, where the flags are no longer
those of a command. -/
def State.absenceInv (s : State) : Bool :=
  s.phase == .idle
    || ((!s.rxTo.getLsbD 0 || (decide (0 < s.rxIdx.toNat) && s.rxB0 == Config.sentinelByte))
      && (!s.rxTo.getLsbD 1 || (decide (1 < s.rxIdx.toNat) && s.rxB1 == Config.sentinelByte)))

/-- The eight pairs of `kind` and `to` that occur, with the data the kind allows (60_exceptions
R152, 41_response_decoder R117, 30_encoding R69). -/
def Result.legal (r : Result) : Bool :=
  match r.kind with
  | .none => r.absent == 0 && r.data == 0
  | .status => !r.absent.getLsbD 1 && decide (r.data.toNat < 256)
  | .variable => true
  | .illegal => r.absent == 0 && r.data == 0

/-- A command has gone wrong when its result is ILLEGAL or has an absence flag (60_exceptions
R169). -/
def Result.goneWrong (r : Result) : Bool := r.kind == .illegal || r.absent != 0

/-- No reset comes in the next `n` transfer opportunities (70_reset_and_hazards R189 P2). -/
def State.quiet (n : Nat) (s : State) : Bool := !(s.rst.take n).any id

/-- An agent that takes at least `n` more transfers (70_reset_and_hazards R189 P7). -/
def atLeast (n : Nat) : Option Nat → Bool
  | none => true
  | some m => decide (n ≤ m)

/-- The conditions under which a command runs to its end in one step: the block is in IDLE, no reset
comes in its `n` transfers, the link takes its `tx` bytes and `rxq` read requests, and the host its
result (42_command_sequencer R132, R143; 70_reset_and_hazards R189 P1, P2, P7). The answers are
named beside it where a command reads. -/
def State.readyFor (n tx rxq : Nat) (s : State) : Bool :=
  s.phase == .idle && s.quiet n && atLeast tx s.txAllow && atLeast rxq s.rxqAllow && s.rspReady

/-- The results of commands given in order, each command taking the answers its reads need from the
front of the list (42_command_sequencer R132, 70_reset_and_hazards R190). -/
def expectedResults (sentinel : Byte) : List CmdWord → List (Option Byte) → List Result
  | [], _ => []
  | cw :: cws, answers =>
    (bigStep sentinel (cmdOp cw) (cmdId cw) (cmdArg cw) answers).result
      :: expectedResults sentinel cws (answers.drop (rxNeed (cmdOp cw)))

/-- The read requests of commands given in order (41_response_decoder R116). -/
def expectedReads (cws : List CmdWord) : Nat := (cws.map fun cw => rxNeed (cmdOp cw)).sum

/-- The operands of a command are in the protocol's domain (70_reset_and_hazards R182, R189 P5). -/
def inDomain (op : Op) (arg : Half) : Bool :=
  match op.toNat with
  | 1 => decide (arg.toInt.natAbs ≤ Config.speedMax)
  | 2 => decide (arg.toNat ≤ Config.limitMax)
  | _ => true

/-! ### The launch premises (70_reset_and_hazards R189)

P1, P2, P5 and P7 are about State. P3, P4 and P6 are about agents outside the block, of which the
block holds nothing (10_state R27) and which it cannot see: they are premises on a record of their
own. Log 20. -/

/-- What stands around the block at launch and is no state of it (10_state R27, 60_exceptions
R164, R165; log 20). -/
structure Surroundings where
  /-- the controller is configured for automatic baud detection (70_reset_and_hazards R179) -/
  autodetects : Bool
  /-- the frames the controller has seen since its last power-up, reset or error condition, oldest
  first (R178) -/
  framesSeen : List (List Byte)
  /-- the bytes the link holds that no read has taken, oldest first (R183) -/
  unread : List Byte
  /-- how many other agents write to the line (R181) -/
  otherWriters : Nat
  /-- how many other agents read from the link (R181) -/
  otherReaders : Nat
  deriving DecidableEq, Repr

/-- P1: `phase = IDLE`. -/
def State.idleAtLaunch (s : State) : Bool := s.phase == .idle

/-- In the next `n` transfer opportunities a reset comes in IDLE only. -/
def State.resetsOnlyInIdle : Nat → State → Bool
  | 0, _ => true
  | n + 1, s => (!s.rst.headD false || s.phase == .idle) && State.resetsOnlyInIdle n (clockStep s)

/-- P2: no reset during a command, for all the samples of `rst` to come. -/
def State.noResetInCommand (s : State) : Bool := State.resetsOnlyInIdle s.rst.length s

/-- P3: since its last power-up, reset or error the controller has seen `0xAA` first, if it
autodetects, and `0x83` (after it). -/
def Surroundings.controllerStarted (env : Surroundings) : Bool :=
  if env.autodetects then
    match env.framesSeen with
    | first :: rest => first == detectBaudRateFrame && rest.contains exitSafeStartFrame
    | [] => false
  else env.framesSeen.contains exitSafeStartFrame

/-- P4: the link holds no unread byte. -/
def Surroundings.noUnreadByte (env : Surroundings) : Bool := env.unread.isEmpty

/-- P5: every command has its operands in the protocol's domain. -/
def State.operandsInDomain (s : State) : Bool :=
  s.cmdOffers.all fun cw => inDomain (cmdOp cw) (cmdArg cw)

/-- P6: no other agent writes to the line or reads from the link. -/
def Surroundings.exclusive (env : Surroundings) : Bool :=
  env.otherWriters == 0 && env.otherReaders == 0

/-- The TX bytes of commands given in order (42_command_sequencer R132). -/
def expectedBytes (cws : List CmdWord) : List Byte :=
  cws.flatMap fun cw => frameOf (cmdOp cw) (cmdId cw) (cmdArg cw)

/-- P7: the link takes every byte and answers every read of the commands offered. -/
def State.linkServes (s : State) : Bool :=
  atLeast (expectedBytes s.cmdOffers).length s.txAllow
    && atLeast (expectedReads s.cmdOffers) s.rxqAllow
    && decide (expectedReads s.cmdOffers ≤ s.rxrAnswers.length)

/-- All seven launch premises, P1 to P7. -/
def launchPremises (env : Surroundings) (s : State) : Bool :=
  s.idleAtLaunch && s.noResetInCommand && env.controllerStarted && env.noUnreadByte
    && s.operandsInDomain && env.exclusive && s.linkServes

/-- Beside them, for a run that ends: the host takes every result (42_command_sequencer R143). -/
def State.hostTakesResults (s : State) : Bool := atLeast s.cmdOffers.length s.rspAllow

/-- The controller sees the frames of commands given in order, whole, in the order sent
(60_exceptions R163); a reserved selector sends none. -/
def Surroundings.sees (env : Surroundings) (cws : List CmdWord) : Surroundings :=
  { env with
    framesSeen := env.framesSeen
      ++ (cws.map fun cw => frameOf (cmdOp cw) (cmdId cw) (cmdArg cw)).filter (!·.isEmpty) }

/-- What a host does before motion commands work. -/
inductive HostAction where
  /-- configure the link to a baud rate -/
  | configure (baud : Nat)
  /-- wait at least this many milliseconds -/
  | delayMs (atLeast : Nat)
  /-- offer a command -/
  | command (cw : CmdWord)
  deriving DecidableEq, Repr

/-- The command words of a host sequence, in order. -/
def commandsOf (actions : List HostAction) : List CmdWord :=
  actions.filterMap fun
    | .configure _ => none
    | .delayMs _ => none
    | .command cw => some cw

/-- `start()` (42_command_sequencer R138, 70_reset_and_hazards R177): a host sequence, not a command
of the block (00_scope R4). Log 19. -/
def startSequence : List HostAction :=
  [.configure Config.linkBaud, .delayMs Config.settleMinMs, .command (cmdWord 3 0 0),
    .command (cmdWord 0 0 0)]

end Sys2Proof.Machine
end

