-- ==== Sys2Proof/Certificates/Slice0/Obligations.lean ====
section
/-! DEFINITION. The statements for the provers, in the order of OBLIGATIONS.json. -/

open Sys2Proof Sys2Proof.Machine

/-! ### Encodings -/

/-- Decode and encode agree (30_encoding R61, R63, R70, R76): decoding the bytes of a well-formed
instruction in its space gives it back, with every operand.
Naming and bytes of command words are the model's choice, log 8, log 14. -/
def Obligations.DecodeOfEncode : Prop :=
  ∀ i : Instr, i.wellFormed = true → decode (encode i).1 (encode i).2 = .ok i

/-- The other direction: bytes that decode are exactly the bytes of the instruction they decode to,
and that instruction is well-formed.
Naming and bytes of command words are the model's choice, log 8, log 14. -/
def Obligations.EncodeOfDecode : Prop :=
  ∀ (space : Space) (bytes : List Byte) (i : Instr),
    decode space bytes = .ok i → encode i = (space, bytes) ∧ i.wellFormed = true

/-- The length of a frame is fixed by its first byte alone (30_encoding R64). -/
def Obligations.FrameLengthByOpcode : Prop :=
  ∀ (opcode : Byte) (payload : List Byte) (i : Instr), decode .frame (opcode :: payload) = .ok i →
    (opcode = 0x83 ∨ opcode = 0xAA) ∧ (opcode :: payload).length = 1
      ∨ opcode = 0xA1 ∧ (opcode :: payload).length = 2
      ∨ (opcode = 0x85 ∨ opcode = 0x86) ∧ (opcode :: payload).length = 3
      ∨ opcode = 0xA2 ∧ (opcode :: payload).length = 4

/-- Words written out bit by bit from 30_encoding R63, R75, R77, one for each kind of row.
The space a table word is read in is the model's choice, log 7. -/
def Obligations.WrittenOutWordsDecode : Prop :=
  decodeTableWord 8 0b10000011 = some .frameExitSafeStart
    ∧ decodeTableWord 24 0b001001100001001010000101 = some (.frameSetSpeedForward 0x12 0x26)
    ∧ decodeTableWord 32 0b00000111011010000000010110100010 = some (.frameSetLimit 0x05 0x68 0x07)
    ∧ decodeTableWord 16 0b0001010010100001 = some (.frameGetVariable 0x14)
    ∧ decodeTableWord 16 0b0000000100000101 = some (.responseVariable 0x05 0x01)
    ∧ decodeTableWord 32 0b001000000001111101000 = some (.exitSafeStart 0x04 0x03E8)
    ∧ decodeTableWord 32 0b010000001010000001111101000 = some (.setForwardLimit 0x03E8)

/-- The command word (30_encoding R61): its fields are read back, and put together they are it. -/
def Obligations.CommandWordFields : Prop :=
  (∀ (op : Op) (id : Byte) (arg : Half),
      (cmdWord op id arg).toNat = op.toNat * 2 ^ 24 + id.toNat * 2 ^ 16 + arg.toNat
        ∧ cmdOp (cmdWord op id arg) = op ∧ cmdId (cmdWord op id arg) = id
        ∧ cmdArg (cmdWord op id arg) = arg)
    ∧ ∀ cw : CmdWord, cmdWord (cmdOp cw) (cmdId cw) (cmdArg cw) = cw

/-- The result record's word (30_encoding R69): kind, flags and data at their places. -/
def Obligations.ResultWordFields : Prop :=
  ∀ r : Result,
    (resultWord r).toNat
        = (match r.kind with
            | .none => 0
            | .status => 1
            | .variable => 2
            | .illegal => 3) * 2 ^ 18 + r.absent.toNat * 2 ^ 16 + r.data.toNat
      ∧ ∀ r' : Result, resultWord r' = resultWord r → r' = r

/-- Reading a frame back (30_encoding R76): on the protocol's domains the inverse map gives the
magnitude with its direction, the identifier and the value that were encoded. -/
def Obligations.FrameReadsBack : Prop :=
  (∀ (id : Byte) (arg : Half),
      decodeFrame (frameOf 0 id arg) = .ok .frameExitSafeStart
        ∧ decodeFrame (frameOf 3 id arg) = .ok .frameDetectBaudRate
        ∧ decodeFrame (frameOf 4 id arg) = .ok (.frameGetVariable id))
    ∧ (∀ (z : Int) (id : Byte), -3200 ≤ z → z ≤ 3200 →
      ∃ (a : BitVec 5) (b : BitVec 7),
        decodeFrame (frameOf 1 id (BitVec.ofInt 16 z))
            = .ok (if 0 ≤ z then .frameSetSpeedForward a b else .frameSetSpeedReverse a b)
          ∧ a.toNat + 32 * b.toNat = z.natAbs)
    ∧ ∀ (id : Byte) (value : Half), value.toNat ≤ 4095 →
      ∃ (a : BitVec 7) (b : BitVec 5),
        decodeFrame (frameOf 2 id value) = .ok (.frameSetLimit id a b)
          ∧ a.toNat + 128 * b.toNat = value.toNat

/-- The inverse map's table (30_encoding R76): which byte sequences say which command, with the
signed speed and the value put together, and nothing else is a frame. -/
def Obligations.ReadFrameTable : Prop :=
  ∀ (f : List Byte) (c : ProtocolCommand), readFrame f = some c ↔
    (f = [0x83] ∧ c = .exitSafeStart)
      ∨ (f = [0xAA] ∧ c = .detectBaudRate)
      ∨ (∃ i, f = [0xA1, i] ∧ c = .getVariable i)
      ∨ (∃ a b, a.toNat ≤ 0x1F ∧ b.toNat ≤ 0x7F ∧ f = [0x85, a, b]
        ∧ c = .setMotorSpeed (a.toNat + 32 * b.toNat))
      ∨ (∃ a b, a.toNat ≤ 0x1F ∧ b.toNat ≤ 0x7F ∧ f = [0x86, a, b]
        ∧ c = .setMotorSpeed (-(a.toNat + 32 * b.toNat)))
      ∨ (∃ i a b, a.toNat ≤ 0x7F ∧ b.toNat ≤ 0x1F ∧ f = [0xA2, i, a, b]
        ∧ c = .setLimit i (a.toNat + 128 * b.toNat))

/-- The inverse map undoes the encoder (30_encoding R76): on the protocol's domains reading back the
frame of a command gives the command; for a speed and for a limit it does so exactly while the
magnitude and the value are below 4096 (40_command_encoder R99, R100); and `[0x86, 0, 0]` reads
back as speed 0, but is the frame of no speed in the domain. -/
def Obligations.ReadFrameInvertsTheEncoder : Prop :=
  (∀ (op : Op) (id : Byte) (arg : Half), op.toNat ≤ 4 → inDomain op arg = true →
      readFrame (frameOf op id arg) = commandOf op id arg)
    ∧ (∀ (id : Byte) (arg : Half),
      readFrame (frameOf 1 id arg) = some (.setMotorSpeed arg.toInt) ↔ arg.toInt.natAbs < 4096)
    ∧ (∀ (id : Byte) (arg : Half),
      readFrame (frameOf 2 id arg) = some (.setLimit id arg.toNat) ↔ arg.toNat < 4096)
    ∧ readFrame [0x86, 0, 0] = some (.setMotorSpeed 0)
    ∧ ∀ (op : Op) (id : Byte) (arg : Half), inDomain op arg = true → frameOf op id arg ≠ [0x86, 0, 0]

/-! ### The encoder -/

/-- The frame of every command for every operand, in and out of the domain, said in integer
arithmetic, with its length (40_command_encoder R90 to R97); no byte for a reserved selector. -/
def Obligations.FrameOfEveryCommand : Prop :=
  (∀ (id : Byte) (arg : Half),
      frameOf 0 id arg = [0x83]
        ∧ frameOf 1 id arg
          = [if arg.toInt < 0 then 0x86 else 0x85, BitVec.ofNat 8 (arg.toInt.natAbs % 32),
              BitVec.ofNat 8 (arg.toInt.natAbs / 32 % 128)]
        ∧ frameOf 2 id arg
          = [0xA2, id, BitVec.ofNat 8 (arg.toNat % 128), BitVec.ofNat 8 (arg.toNat / 128 % 32)]
        ∧ frameOf 3 id arg = [0xAA]
        ∧ frameOf 4 id arg = [0xA1, id]
        ∧ ∀ op : Op, 5 ≤ op.toNat → frameOf op id arg = [])
    ∧ [0, 1, 2, 3, 4].map (fun op : Op => txLen op) = [1, 3, 4, 1, 2]
    ∧ ∀ (op : Op) (id : Byte) (arg : Half), (frameOf op id arg).length = txLen op

/-- The rows of the table of 40_command_encoder R101: sign test, magnitude, masks and shifts. -/
def Obligations.EncoderArithmetic : Prop :=
  (∀ arg : Half,
      (arg.toInt < 0 ↔ arg.getLsbD 15 = true)
        ∧ (mag arg).toNat = arg.toInt.natAbs
        ∧ (mag arg).toNat ≤ 32768 ∧ (mag arg >>> 5).toNat ≤ 1024)
    ∧ (mag 0x8000).toNat = 32768
    ∧ (∀ m : Half, low5 m = (m.extractLsb' 0 5).setWidth 8 ∧ (low5 m).toNat ≤ 31
        ∧ high7 m = (m.extractLsb' 5 7).setWidth 8 ∧ (high7 m).toNat ≤ 127)
    ∧ ∀ v : Half, low7 v = (v.extractLsb' 0 7).setWidth 8 ∧ (low7 v).toNat ≤ 127
        ∧ (v >>> 7).toNat ≤ 511
        ∧ high5 v = (v.extractLsb' 7 5).setWidth 8 ∧ (high5 v).toNat ≤ 31

/-- The round trips of 40_command_encoder R100 on the protocol's domains. -/
def Obligations.EncoderRoundTrips : Prop :=
  (∀ m : Half, m.toNat ≤ 3200 → decodeMagnitude (low5 m) (high7 m) = m.toNat)
    ∧ (∀ (id : Byte) (z : Int), -3200 ≤ z → z ≤ 3200 →
        frameOf 1 id (BitVec.ofInt 16 z)
          = [if 0 ≤ z then 0x85 else 0x86, low5 (BitVec.ofNat 16 z.natAbs),
              high7 (BitVec.ofNat 16 z.natAbs)])
    ∧ ∀ (id : Byte) (v : Half), v.toNat ≤ 4095 →
        frameOf 2 id v = [0xA2, id, (v &&& 0x7F).setWidth 8, ((v >>> 7) &&& 0x1F).setWidth 8]
          ∧ decodeLimit ((v &&& 0x7F).setWidth 8) (((v >>> 7) &&& 0x1F).setWidth 8) = v.toNat

/-- Operands outside the domain (40_command_encoder R99): a speed frame depends on the sign and the
magnitude modulo 4096 only, a limit frame on the identifier and the value modulo 4096 only; that
residue is what a receiver reads back, so the frame says all of an operand below 4096; and the
result is the same whatever the operand. -/
def Obligations.OutOfDomainTruncation : Prop :=
  (∀ (id id' : Byte) (s t : Half),
      frameOf 1 id s = frameOf 1 id' t
        ↔ ((s.toInt < 0 ↔ t.toInt < 0) ∧ s.toInt.natAbs % 4096 = t.toInt.natAbs % 4096))
    ∧ (∀ (i j : Byte) (v w : Half),
      frameOf 2 i v = frameOf 2 j w ↔ (i = j ∧ v.toNat % 4096 = w.toNat % 4096))
    ∧ (∀ m : Half, decodeMagnitude (low5 m) (high7 m) = m.toNat % 4096)
    ∧ (∀ v : Half, decodeLimit (low7 v) (high5 v) = v.toNat % 4096)
    ∧ ∀ (sentinel : Byte) (op : Op) (id : Byte) (arg arg' : Half) (ans : List (Option Byte)),
      op = 1 ∨ op = 2 →
        (bigStep sentinel op id arg ans).result = (bigStep sentinel op id arg' ans).result

/-- Frame length, response class, reads and result kind of every selector (42_command_sequencer
R126); they depend on no operand and no answer. -/
def Obligations.SelectorTable : Prop :=
  [0, 1, 2, 3, 4, 5, 6, 7].map (fun op : Op => (txLen op, responseClass op, rxNeed op))
      = [(1, .none, 0), (3, .none, 0), (4, .status, 1), (1, .none, 0), (2, .variable, 2),
          (0, .illegal, 0), (0, .illegal, 0), (0, .illegal, 0)]
    ∧ ∀ (sentinel : Byte) (op : Op) (id : Byte) (arg : Half) (ans : List (Option Byte)),
      let run := bigStep sentinel op id arg ans
      run.writes.length = txLen op ∧ run.reads = rxNeed op ∧ run.result.kind = responseClass op

/-! ### The decoder -/

/-- Integer arithmetic of the decoder (41_response_decoder R115). -/
def Obligations.AssembledValue : Prop :=
  ∀ b0 b1 : Byte,
    (assemble b0 b1).toNat = b0.toNat + 256 * b1.toNat
      ∧ assemble b0 b1 = b1 ++ b0
      ∧ 256 * b1.toNat ≤ 65280 ∧ 256 * b1.toNat % 256 = 0
      ∧ b0.toNat + 256 * b1.toNat ≤ 65535
      ∧ (b0.setWidth 16 : Half).toNat = b0.toNat ∧ b0.toNat ≤ 255

/-- Flags and answers correspond (41_response_decoder R117), for every sentinel. -/
def Obligations.FlagsTellTheAnswers : Prop :=
  ∀ (sentinel : Byte) (op : Op) (id : Byte) (arg : Half) (ans : List (Option Byte)),
    ans.length = rxNeed op →
      let r := (bigStep sentinel op id arg ans).result
      (r.absent.getLsbD 0 = true ↔ ans[0]? = some none)
        ∧ (r.absent.getLsbD 1 = true ↔ ans[1]? = some none)
        ∧ (r.kind = .status → r.absent.getLsbD 1 = false)
        ∧ (r.kind = .none ∨ r.kind = .illegal → r.absent = 0 ∧ r.data = 0)
        ∧ (∀ b, ans[0]? = some (some b) → r.data.extractLsb' 0 8 = b)
        ∧ ∀ b, ans[1]? = some (some b) → r.data.extractLsb' 8 8 = b

/-- Absence is out of band whatever the sentinel (41_response_decoder R111, R113): different answers
give different records, and an absent status byte differs from a status byte equal to the sentinel
in its flag and only there. -/
def Obligations.AbsenceIsOutOfBand : Prop :=
  ∀ sentinel : Byte,
    (∀ a a' : Option Byte, decodeStatus sentinel a = decodeStatus sentinel a' → a = a')
      ∧ (∀ a0 a1 b0 b1 : Option Byte,
        decodeVariable sentinel a0 a1 = decodeVariable sentinel b0 b1 → a0 = b0 ∧ a1 = b1)
      ∧ (decodeStatus sentinel none).data = (decodeStatus sentinel (some sentinel)).data
      ∧ (decodeStatus sentinel none).absent = 1
      ∧ (decodeStatus sentinel (some sentinel)).absent = 0

/-- When a command has gone wrong (60_exceptions R169): exactly when its selector is reserved or
one of its reads was not answered with a byte. -/
def Obligations.GoneWrongExactly : Prop :=
  ∀ (sentinel : Byte) (op : Op) (id : Byte) (arg : Half) (ans : List (Option Byte)),
    ans.length = rxNeed op →
      ((bigStep sentinel op id arg ans).result.goneWrong = true ↔ 5 ≤ op.toNat ∨ none ∈ ans)

/-! ### The five transfers -/

/-- ACCEPT (42_command_sequencer R127): enabled in IDLE when a command is offered; it latches the
three fields, clears the indices and flags, goes to TX or DONE, and leaves `rx_b` alone.
The inputs' data and the record are the model's choice, log 4, log 6, log 13. -/
def Obligations.AcceptTransfer : Prop :=
  ∀ (s : State) (cw : CmdWord) (rest : List CmdWord),
    s.phase = .idle → s.cmdOffers = cw :: rest → s.rst.headD false = false →
      clockStep s
        = { s with
            phase := if (cmdOp cw).toNat ≤ 4 then .tx else .done
            opQ := cmdOp cw
            idQ := cmdId cw
            argQ := cmdArg cw
            txIdx := 0
            rxIdx := 0
            rxTo := 0
            rst := s.rst.tail
            cmdOffers := rest
            trace := s.trace ++ [.cmd cw] }

/-- SEND (42_command_sequencer R128): the byte at `tx_idx` goes out; after the last byte the block
goes to DONE or RXQ.
The inputs' data and the record are the model's choice, log 4, log 6, log 13. -/
def Obligations.SendTransfer : Prop :=
  ∀ (s : State) (b : Byte),
    s.phase = .tx → s.txReady = true → (frameOf s.opQ s.idQ s.argQ)[s.txIdx.toNat]? = some b →
    s.rst.headD false = false →
      s.txData = some b
        ∧ clockStep s
          = { s with
              phase :=
                if s.txIdx.toNat + 1 = txLen s.opQ then
                  (if rxNeed s.opQ = 0 then .done else .rxq)
                else .tx
              txIdx := s.txIdx + 1
              txAllow := spend 1 s.txAllow
              rst := s.rst.tail
              trace := s.trace ++ [.tx b] }

/-- REQ (42_command_sequencer R129).
The inputs' data and the record are the model's choice, log 4, log 6, log 13. -/
def Obligations.RequestTransfer : Prop :=
  ∀ s : State, s.phase = .rxq → s.rxqReady = true → s.rst.headD false = false →
    clockStep s
      = { s with
          phase := .rxr
          rxqAllow := spend 1 s.rxqAllow
          rst := s.rst.tail
          trace := s.trace ++ [.readRequest] }

/-- RECV (42_command_sequencer R130), for the first and for the second read: the byte or the
sentinel, the flag, the index, and DONE exactly after the last read.
The inputs' data and the record are the model's choice, log 4, log 6, log 13. -/
def Obligations.ReceiveTransfer : Prop :=
  ∀ (s : State) (a : Option Byte) (rest : List (Option Byte)),
    s.phase = .rxr → s.rxrAnswers = a :: rest → s.rst.headD false = false →
      (s.rxIdx = 0 →
        clockStep s
          = { s with
              phase := if rxNeed s.opQ = 1 then .done else .rxq
              rxIdx := 1
              rxB0 := a.getD Config.sentinelByte
              rxTo := BitVec.ofBool (s.rxTo.getLsbD 1) ++ BitVec.ofBool a.isNone
              rxrAnswers := rest
              rst := s.rst.tail
              trace := s.trace ++ [.readAnswer a] })
        ∧ (s.rxIdx = 1 →
          clockStep s
            = { s with
                phase := if rxNeed s.opQ = 2 then .done else .rxq
                rxIdx := 2
                rxB1 := a.getD Config.sentinelByte
                rxTo := BitVec.ofBool a.isNone ++ BitVec.ofBool (s.rxTo.getLsbD 0)
                rxrAnswers := rest
                rst := s.rst.tail
                trace := s.trace ++ [.readAnswer a] })

/-- The record DELIVER offers, by the latched selector (42_command_sequencer R131). -/
def Obligations.OfferedRecord : Prop :=
  ∀ s : State,
    (s.opQ = 0 ∨ s.opQ = 1 ∨ s.opQ = 3 → s.rspRecord = ⟨.none, 0, 0⟩)
      ∧ (s.opQ = 2 →
        s.rspRecord = ⟨.status, (s.rxTo.extractLsb' 0 1).setWidth 2, s.rxB0.setWidth 16⟩)
      ∧ (s.opQ = 4 → s.rspRecord = ⟨.variable, s.rxTo, s.rxB1 ++ s.rxB0⟩)
      ∧ (5 ≤ s.opQ.toNat → s.rspRecord = ⟨.illegal, 0, 0⟩)

/-- DELIVER (42_command_sequencer R131): the host takes the record offered and the block goes to
IDLE; nothing else of it changes.
The inputs' data and the record are the model's choice, log 4, log 6, log 13. -/
def Obligations.DeliverTransfer : Prop :=
  ∀ s : State, s.phase = .done → s.rspReady = true → s.rst.headD false = false →
    clockStep s
      = { s with
          phase := .idle
          rspAllow := spend 1 s.rspAllow
          rst := s.rst.tail
          trace := s.trace ++ [.result s.rspRecord] }

/-- The operand latches are written by ACCEPT alone (10_state R22, 20_memory R53): no transfer of a
busy block changes them, whatever the host offers.
The offers and samples of `rst` are the model's form of the inputs, log 4, log 6. -/
def Obligations.OnlyAcceptWritesTheLatches : Prop :=
  ∀ s : State, s.phase ≠ .idle → s.rst.headD false = false →
    (clockStep s).opQ = s.opQ ∧ (clockStep s).idQ = s.idQ ∧ (clockStep s).argQ = s.argQ
      ∧ (clockStep s).cmdOffers = s.cmdOffers

/-! ### Commands: each completes with its own effect, and nothing else changes -/

/-- `exit_safe_start` (40_command_encoder R91, 42_command_sequencer R137): one byte, no read.
One step a command, the inputs and the record are the model's choice, log 4, log 5, log 6, log 13. -/
def Obligations.ExitSafeStartCompletes : Prop :=
  ∀ (id : Byte) (arg : Half) (s : State), s.readyFor 3 1 0 = true →
    exec (.exitSafeStart id arg) s
      = .next { s with
          phase := .idle
          opQ := 0
          idQ := id
          argQ := arg
          txIdx := 1
          rxIdx := 0
          rxTo := 0
          rst := s.rst.drop 3
          cmdOffers := s.cmdOffers.tail
          txAllow := spend 1 s.txAllow
          rspAllow := spend 1 s.rspAllow
          trace := s.trace
            ++ [.cmd (cmdWord 0 id arg), .tx 0x83, .result ⟨.none, 0, 0⟩] }

/-- `set_motor_speed` (40_command_encoder R92, R99, 42_command_sequencer R137): three bytes for
every speed, in or out of the domain, no read, the same result.
One step a command, the inputs and the record are the model's choice, log 4, log 5, log 6, log 13. -/
def Obligations.SetMotorSpeedCompletes : Prop :=
  ∀ (id : Byte) (speed : Half) (s : State), s.readyFor 5 3 0 = true →
    exec (.setMotorSpeed id speed) s
      = .next { s with
          phase := .idle
          opQ := 1
          idQ := id
          argQ := speed
          txIdx := 3
          rxIdx := 0
          rxTo := 0
          rst := s.rst.drop 5
          cmdOffers := s.cmdOffers.tail
          txAllow := spend 3 s.txAllow
          rspAllow := spend 1 s.rspAllow
          trace := s.trace
            ++ [.cmd (cmdWord 1 id speed), .tx (if speed.toInt < 0 then 0x86 else 0x85),
              .tx (BitVec.ofNat 8 (speed.toInt.natAbs % 32)),
              .tx (BitVec.ofNat 8 (speed.toInt.natAbs / 32 % 128)), .result ⟨.none, 0, 0⟩] }

/-- `set_limit` (40_command_encoder R95, 41_response_decoder R111): four bytes for every identifier
and value, one read, whose answer, a byte or none, is the status.
One step a command, the inputs and the record are the model's choice, log 4, log 5, log 6, log 13. -/
def Obligations.SetLimitCompletes : Prop :=
  ∀ (limitId : Byte) (value : Half) (s : State) (a : Option Byte) (rest : List (Option Byte)),
    s.readyFor 8 4 1 = true → s.rxrAnswers = a :: rest →
    exec (.setLimit limitId value) s
      = .next { s with
          phase := .idle
          opQ := 2
          idQ := limitId
          argQ := value
          txIdx := 4
          rxIdx := 1
          rxB0 := a.getD Config.sentinelByte
          rxTo := if a.isNone then 1 else 0
          rst := s.rst.drop 8
          cmdOffers := s.cmdOffers.tail
          txAllow := spend 4 s.txAllow
          rxqAllow := spend 1 s.rxqAllow
          rxrAnswers := rest
          rspAllow := spend 1 s.rspAllow
          trace := s.trace
            ++ [.cmd (cmdWord 2 limitId value), .tx 0xA2, .tx limitId,
              .tx (BitVec.ofNat 8 (value.toNat % 128)),
              .tx (BitVec.ofNat 8 (value.toNat / 128 % 32)), .readRequest, .readAnswer a,
              .result ⟨.status, if a.isNone then 1 else 0,
                (a.getD Config.sentinelByte).setWidth 16⟩] }

/-- `detect_baud_rate` (40_command_encoder R96, 42_command_sequencer R137): one byte, no read.
One step a command, the inputs and the record are the model's choice, log 4, log 5, log 6, log 13. -/
def Obligations.DetectBaudRateCompletes : Prop :=
  ∀ (id : Byte) (arg : Half) (s : State), s.readyFor 3 1 0 = true →
    exec (.detectBaudRate id arg) s
      = .next { s with
          phase := .idle
          opQ := 3
          idQ := id
          argQ := arg
          txIdx := 1
          rxIdx := 0
          rxTo := 0
          rst := s.rst.drop 3
          cmdOffers := s.cmdOffers.tail
          txAllow := spend 1 s.txAllow
          rspAllow := spend 1 s.rspAllow
          trace := s.trace
            ++ [.cmd (cmdWord 3 id arg), .tx 0xAA, .result ⟨.none, 0, 0⟩] }

/-- `get_variable` (40_command_encoder R97, 41_response_decoder R112, 42_command_sequencer R136): two
bytes, two reads in order whatever the first answer, low byte first.
One step a command, the inputs and the record are the model's choice, log 4, log 5, log 6, log 13. -/
def Obligations.GetVariableCompletes : Prop :=
  ∀ (variableId : Byte) (arg : Half) (s : State) (a0 a1 : Option Byte) (rest : List (Option Byte)),
    s.readyFor 8 2 2 = true → s.rxrAnswers = a0 :: a1 :: rest →
    exec (.getVariable variableId arg) s
      = .next { s with
          phase := .idle
          opQ := 4
          idQ := variableId
          argQ := arg
          txIdx := 2
          rxIdx := 2
          rxB0 := a0.getD Config.sentinelByte
          rxB1 := a1.getD Config.sentinelByte
          rxTo := BitVec.ofBool a1.isNone ++ BitVec.ofBool a0.isNone
          rst := s.rst.drop 8
          cmdOffers := s.cmdOffers.tail
          txAllow := spend 2 s.txAllow
          rxqAllow := spend 2 s.rxqAllow
          rxrAnswers := rest
          rspAllow := spend 1 s.rspAllow
          trace := s.trace
            ++ [.cmd (cmdWord 4 variableId arg), .tx 0xA1, .tx variableId, .readRequest,
              .readAnswer a0, .readRequest, .readAnswer a1,
              .result ⟨.variable, BitVec.ofBool a1.isNone ++ BitVec.ofBool a0.isNone,
                a1.getD Config.sentinelByte ++ a0.getD Config.sentinelByte⟩] }

/-- Reserved selectors 5, 6 and 7 (30_encoding R71, 42_command_sequencer R139): no byte, no read, the
record ILLEGAL, and the block is ready again.
One step a command, the inputs and the record are the model's choice, log 4, log 5, log 6, log 13. -/
def Obligations.ReservedSelectorsComplete : Prop :=
  ∀ (op : Op) (i : Byte → Half → Instr),
    (op, i) = ((5, .reservedOp5) : Op × (Byte → Half → Instr))
      ∨ (op, i) = ((6, .reservedOp6) : Op × (Byte → Half → Instr))
      ∨ (op, i) = ((7, .reservedOp7) : Op × (Byte → Half → Instr)) →
    ∀ (id : Byte) (arg : Half) (s : State), s.readyFor 2 0 0 = true →
      exec (i id arg) s
        = .next { s with
            phase := .idle
            opQ := op
            idQ := id
            argQ := arg
            txIdx := 0
            rxIdx := 0
            rxTo := 0
            rst := s.rst.drop 2
            cmdOffers := s.cmdOffers.tail
            rspAllow := spend 1 s.rspAllow
            trace := s.trace ++ [.cmd (cmdWord op id arg), .result ⟨.illegal, 0, 0⟩] }

/-- The pseudo-commands (42_command_sequencer R133 to R135): each writes the frame of `set_limit`
with its identifier, 5, 9 or 2, makes one read and delivers the status.
One step a command, the inputs and the record are the model's choice, log 4, log 5, log 6, log 13. -/
def Obligations.PseudoCommandsComplete : Prop :=
  ∀ (limitId : Byte) (i : Half → Instr),
    (limitId, i) = ((5, .setForwardLimit) : Byte × (Half → Instr))
      ∨ (limitId, i) = ((9, .setReverseLimit) : Byte × (Half → Instr))
      ∨ (limitId, i) = ((2, .setDecelerationLimit) : Byte × (Half → Instr)) →
    ∀ (value : Half) (s : State) (a : Option Byte) (rest : List (Option Byte)),
      s.readyFor 8 4 1 = true → s.rxrAnswers = a :: rest →
      exec (i value) s
        = .next { s with
            phase := .idle
            opQ := 2
            idQ := limitId
            argQ := value
            txIdx := 4
            rxIdx := 1
            rxB0 := a.getD Config.sentinelByte
            rxTo := if a.isNone then 1 else 0
            rst := s.rst.drop 8
            cmdOffers := s.cmdOffers.tail
            txAllow := spend 4 s.txAllow
            rxqAllow := spend 1 s.rxqAllow
            rxrAnswers := rest
            rspAllow := spend 1 s.rspAllow
            trace := s.trace
              ++ [.cmd (cmdWord 2 limitId value), .tx 0xA2, .tx limitId,
                .tx (BitVec.ofNat 8 (value.toNat % 128)),
                .tx (BitVec.ofNat 8 (value.toNat / 128 % 32)), .readRequest, .readAnswer a,
                .result ⟨.status, if a.isNone then 1 else 0,
                  (a.getD Config.sentinelByte).setWidth 16⟩] }

/-- A command met while the block is busy waits on CMD, unchanged (42_command_sequencer R141): for
each of the eleven command rows.
That a row run by hand outside IDLE waits is the model's reading, log 12. -/
def Obligations.CommandsWaitWhileBusy : Prop :=
  ∀ (i : Instr) (s : State), (commandFields i).isSome = true → s.phase ≠ .idle →
    exec i s = .next s

/-! ### Frames and responses -/

/-- The six frame rows write the bytes not yet sent, in order, and then go to DONE or RXQ by the
latched command's class (30_encoding R63, 42_command_sequencer R128); nothing else changes.
The meaning of a frame row is the model's reading, log 9; inputs and record, log 4, log 6, log 13. -/
def Obligations.FramesComplete : Prop :=
  ∀ (i : Instr) (bytes : List Byte) (s : State),
    (i = .frameExitSafeStart ∧ bytes = [0x83])
      ∨ (∃ (a : BitVec 5) (b : BitVec 7), i = .frameSetSpeedForward a b
          ∧ bytes = [0x85, BitVec.ofNat 8 a.toNat, BitVec.ofNat 8 b.toNat])
      ∨ (∃ (a : BitVec 5) (b : BitVec 7), i = .frameSetSpeedReverse a b
          ∧ bytes = [0x86, BitVec.ofNat 8 a.toNat, BitVec.ofNat 8 b.toNat])
      ∨ (i = .frameDetectBaudRate ∧ bytes = [0xAA])
      ∨ (∃ (limitId : Byte) (a : BitVec 7) (b : BitVec 5), i = .frameSetLimit limitId a b
          ∧ bytes = [0xA2, limitId, BitVec.ofNat 8 a.toNat, BitVec.ofNat 8 b.toNat])
      ∨ (∃ variableId : Byte, i = .frameGetVariable variableId ∧ bytes = [0xA1, variableId]) →
    s.phase = .tx → s.txIdx.toNat < bytes.length →
    s.quiet (bytes.length - s.txIdx.toNat) = true →
    atLeast (bytes.length - s.txIdx.toNat) s.txAllow = true →
      exec i s
        = .next { s with
            phase := if rxNeed s.opQ = 0 then .done else .rxq
            txIdx := BitVec.ofNat 3 bytes.length
            rst := s.rst.drop (bytes.length - s.txIdx.toNat)
            txAllow := spend (bytes.length - s.txIdx.toNat) s.txAllow
            trace := s.trace ++ (bytes.drop s.txIdx.toNat).map .tx }

/-- `RS1` (41_response_decoder R111): the status byte is read, from the request on or with the
request already outstanding; the flag of the first read is cleared.
The meaning of a response row is the model's reading, log 10; inputs and record, log 4, log 6, log
13. -/
def Obligations.StatusResponseCompletes : Prop :=
  ∀ (status : Byte) (s : State), s.opQ = 2 → s.rxIdx = 0 →
    (s.phase = .rxq → s.quiet 2 = true → s.rxqReady = true →
      exec (.responseStatus status) s
        = .next { s with
            phase := .done
            rxIdx := 1
            rxB0 := status
            rxTo := s.rxTo &&& 2
            rst := s.rst.drop 2
            rxqAllow := spend 1 s.rxqAllow
            rxrAnswers := s.rxrAnswers.tail
            trace := s.trace ++ [.readRequest, .readAnswer (some status)] })
      ∧ (s.phase = .rxr → s.quiet 1 = true →
        exec (.responseStatus status) s
          = .next { s with
              phase := .done
              rxIdx := 1
              rxB0 := status
              rxTo := s.rxTo &&& 2
              rst := s.rst.drop 1
              rxrAnswers := s.rxrAnswers.tail
              trace := s.trace ++ [.readAnswer (some status)] })

/-- `RV2` (41_response_decoder R112): two bytes are read in order, the first into `rx_b[0]`, with
both flags cleared.
The meaning of a response row is the model's reading, log 10; inputs and record, log 4, log 6, log
13. -/
def Obligations.VariableResponseCompletes : Prop :=
  ∀ (low high : Byte) (s : State), s.opQ = 4 → s.rxIdx = 0 →
    (s.phase = .rxq → s.quiet 4 = true → atLeast 2 s.rxqAllow = true →
      exec (.responseVariable low high) s
        = .next { s with
            phase := .done
            rxIdx := 2
            rxB0 := low
            rxB1 := high
            rxTo := 0
            rst := s.rst.drop 4
            rxqAllow := spend 2 s.rxqAllow
            rxrAnswers := s.rxrAnswers.drop 2
            trace := s.trace
              ++ [.readRequest, .readAnswer (some low), .readRequest, .readAnswer (some high)] })
      ∧ (s.phase = .rxr → s.quiet 3 = true → atLeast 1 s.rxqAllow = true →
        exec (.responseVariable low high) s
          = .next { s with
              phase := .done
              rxIdx := 2
              rxB0 := low
              rxB1 := high
              rxTo := 0
              rst := s.rst.drop 3
              rxqAllow := spend 1 s.rxqAllow
              rxrAnswers := s.rxrAnswers.drop 2
              trace := s.trace
                ++ [.readAnswer (some low), .readRequest, .readAnswer (some high)] })

/-- Outside TX no frame row does anything, and outside RXQ and RXR no response row does (10_state R21,
42_command_sequencer R137): the block offers no byte and does not look at RX. The model's choice for
rows outside their phase, log 9 and log 10. -/
def Obligations.WireRowsWaitOutsideTheirPhase : Prop :=
  ∀ (i : Instr) (s : State),
    ((encode i).1 = .frame → s.phase ≠ .tx → exec i s = .next s)
      ∧ ((encode i).1 = .response → s.phase ≠ .rxq → s.phase ≠ .rxr → exec i s = .next s)

/-! ### The step -/

/-- A step runs the instruction at the block's position (10_state R23): the command word offered in
IDLE, read as its four bytes; the latched command's frame in TX; a whole response about to be read
in RXQ and RXR.
What stands for a fetch is the model's choice, log 5, log 14. -/
def Obligations.StepRunsTheDecodedInstruction : Prop :=
  ∀ (i : Instr) (s : State),
    (∀ (cw : CmdWord) (rest : List CmdWord), s.phase = .idle → s.cmdOffers = cw :: rest →
        decode .commandWord (bytesOfWord 4 cw.toNat) = .ok i → step s = exec i s)
      ∧ (s.phase = .tx → decode .frame (frameOf s.opQ s.idQ s.argQ) = .ok i → step s = exec i s)
      ∧ ∀ bytes rest, s.phase = .rxq ∨ s.phase = .rxr → s.rxIdx = 0 →
        bytes.length = rxNeed s.opQ → s.rxrAnswers = bytes.map some ++ rest →
        decode .response bytes = .ok i → step s = exec i s

/-- Whatever instruction is placed where the step fetches, the next step runs exactly it.
Placing is the model's own, log 5, log 16. -/
def Obligations.PlacedInstructionRuns : Prop :=
  ∀ (i : Instr) (s : State), i.wellFormed = true →
    fetch (placeInstr i s) = .instr i ∧ step (placeInstr i s) = exec i (placeInstr i s)

/-- In TX the step runs the row whose bytes are the latched command's frame (30_encoding R72, R76): the
block offers nothing but its own six frames.
That the step of TX is a frame row is the model's reading, log 9. -/
def Obligations.FetchedFrameIsTheLatchedCommands : Prop :=
  ∀ s : State, s.phase = .tx → s.opQ.toNat ≤ 4 →
    ∃ i, fetch s = .instr i ∧ encode i = (.frame, frameOf s.opQ s.idQ s.argQ)

/-- The step never refuses, and it faults exactly where TX has no frame to send, which 10_state R30
rules out (the model's own stop, log 11). -/
def Obligations.StepFaultsOnlyWithoutAFrame : Prop :=
  ∀ s : State,
    (∀ r, step s ≠ .refused r)
      ∧ ((∃ r, step s = .fault r) ↔ s.phase = .tx ∧ 5 ≤ s.opQ.toNat)
      ∧ (s.sequenceInv = true → ∃ t, step s = .next t)

/-- A stalled block waits, unchanged, without limit (42_command_sequencer R143, 70_reset_and_hazards
R186): in each phase, while the agent on its channel does not take part and no reset comes.
Waiting as an unchanged next state is the model's reading, log 15. -/
def Obligations.StalledBlockWaits : Prop :=
  ∀ s : State, s.sequenceInv = true → s.rst = [] →
    (s.phase = .idle ∧ s.cmdOffers = []) ∨ (s.phase = .tx ∧ s.txReady = false)
      ∨ (s.phase = .rxq ∧ s.rxqReady = false) ∨ (s.phase = .rxr ∧ s.rxrAnswers = [])
      ∨ (s.phase = .done ∧ s.rspReady = false) →
    clockStep s = s ∧ step s = .next s

/-- A busy block takes no command (42_command_sequencer R141): a step from any phase but IDLE leaves
the offers as they are.
The offers are the model's form of CMD, log 4. -/
def Obligations.BusyStepTakesNoCommand : Prop :=
  ∀ s t : State, s.phase ≠ .idle → step s = .next t → t.cmdOffers = s.cmdOffers

/-- A command that was held up completes once the link and the host take part (42_command_sequencer
R143): from any state in the middle of a command, within three steps, with one result delivered and
no new command taken.
The number of steps is the model's, log 5. -/
def Obligations.HeldUpCommandCompletes : Prop :=
  ∀ s : State, s.sequenceInv = true → s.phase ≠ .idle → s.rst = [] →
    s.txAllow = none → s.rxqAllow = none → s.rspAllow = none →
    rxNeed s.opQ ≤ s.rxIdx.toNat + s.rxrAnswers.length →
    ∃ k t, 1 ≤ k ∧ k ≤ 3 ∧ Host.Core.run Sys2Proof.core k s = .next t ∧ t.phase = .idle
      ∧ t.cmdOffers = s.cmdOffers
      ∧ txStream t.trace
        = txStream s.trace ++ (frameOf s.opQ s.idQ s.argQ).drop s.txIdx.toNat
      ∧ (resultStream t.trace).length = (resultStream s.trace).length + 1

/-! ### Reset -/

/-- The state after reset (10_state R29): IDLE, ready for a command, nothing offered on TX, RX or RSP,
nothing sent, read or delivered.
The inputs at launch are the model's choice, log 4; no value of an unspecified element is said. -/
def Obligations.ResetLeavesIdle : Prop :=
  State.reset.phase = .idle ∧ State.reset.cmdReady = true ∧ State.reset.txValid = false
    ∧ State.reset.rxqValid = false ∧ State.reset.rxrReady = false
    ∧ State.reset.rspValid = false ∧ State.reset.trace = []
    ∧ State.reset.sequenceInv = true ∧ State.reset.absenceInv = true

/-- Reset in any phase (70_reset_and_hazards R175, R176): the step resets the block and does nothing
else: no transfer, and the link, the host and their backlog stay as they are. What the other
elements hold is not said.
The sampling of `rst` is the model's choice, log 4, log 6, log 18. -/
def Obligations.ResetFromAnyPhase : Prop :=
  ∀ (s : State) (later : List Bool), s.sequenceInv = true → s.rst = true :: later →
    ∃ t, step s = .next t ∧ t.phase = .idle ∧ t.cmdReady = true ∧ t.txValid = false
      ∧ t.rxqValid = false ∧ t.rxrReady = false ∧ t.rspValid = false
      ∧ t.rst = later ∧ t.cmdOffers = s.cmdOffers ∧ t.txAllow = s.txAllow
      ∧ t.rxqAllow = s.rxqAllow ∧ t.rxrAnswers = s.rxrAnswers ∧ t.rspAllow = s.rspAllow
      ∧ t.trace = s.trace ++ [.reset]

/-- Reset in the middle of a frame (70_reset_and_hazards R176): the bytes taken stay sent, the others
are never sent, no read is made and no result delivered.
The sampling of `rst` is the model's choice, log 4, log 6, log 18. -/
def Obligations.ResetAbandonsTheFrame : Prop :=
  ∀ (s : State) (cw : CmdWord) (rest : List CmdWord) (n : Nat) (later : List Bool),
    s.phase = .idle → s.cmdOffers = cw :: rest → (cmdOp cw).toNat ≤ 4 →
    n < txLen (cmdOp cw) → atLeast n s.txAllow = true →
    s.rst = List.replicate (n + 1) false ++ true :: later →
    ∃ t, step s = .next t ∧ t.phase = .idle ∧ t.rst = later ∧ t.cmdOffers = rest
      ∧ t.txAllow = spend n s.txAllow ∧ t.rxqAllow = s.rxqAllow
      ∧ t.rxrAnswers = s.rxrAnswers ∧ t.rspAllow = s.rspAllow
      ∧ t.trace = s.trace ++ .cmd cw
        :: ((frameOf (cmdOp cw) (cmdId cw) (cmdArg cw)).take n).map .tx ++ [.reset]

/-! ### The whole machine -/

/-- The invariants of 10_state R30: they hold after reset, every step and every single transfer keeps
them, and at most one of the five ready and valid outputs is 1. -/
def Obligations.SequenceInvariantKept : Prop :=
  State.reset.sequenceInv = true
    ∧ (∀ s t : State, s.sequenceInv = true → step s = .next t → t.sequenceInv = true)
    ∧ (∀ s : State, s.sequenceInv = true → (clockStep s).sequenceInv = true)
    ∧ ∀ s : State,
      (s.cmdReady.toNat + s.txValid.toNat + s.rxqValid.toNat + s.rxrReady.toNat
        + s.rspValid.toNat) ≤ 1

/-- A set absence flag belongs to a read already answered and its byte is the sentinel (10_state R24,
60_exceptions R153): every step keeps it. -/
def Obligations.AbsenceInvariantKept : Prop :=
  ∀ s t : State, s.absenceInv = true → step s = .next t → t.absenceInv = true

/-- Every result delivered is one of the eight kinds with their flags (60_exceptions R152): a step from
any state whose run has delivered only such results keeps it so.
The record is the model's own, log 13. -/
def Obligations.DeliveredResultsAreLegal : Prop :=
  ∀ s t : State, (∀ r ∈ resultStream s.trace, r.legal = true) → step s = .next t →
    ∀ r ∈ resultStream t.trace, r.legal = true

/-- The run's record only grows: nothing a step does undoes a transfer (20_memory R50, R51).
The record is the model's own, log 13. -/
def Obligations.TraceOnlyGrows : Prop :=
  ∀ s t : State, step s = .next t → ∃ events, t.trace = s.trace ++ events

/-- Every step is a run of the five transfers and resets of 42_command_sequencer R127 to R131, from
every state that 10_state R30 allows, through stalls and resets.
The size of a step is the model's choice, log 5. -/
def Obligations.StepIsARunOfTransfers : Prop :=
  ∀ s : State, s.sequenceInv = true →
    ∃ k, 1 ≤ k ∧ k ≤ 10 ∧ step s = .next (times k clockStep s)

/-- The big-step form (42_command_sequencer R132): with the link and the host taking part, the step
does the trace of `Exec`, its writes, its reads and its result, for every command word.
The inputs' data and the record are the model's choice, log 4, log 6, log 13. -/
def Obligations.StepAgreesWithBigStep : Prop :=
  ∀ (s : State) (cw : CmdWord) (rest : List CmdWord),
    let op := cmdOp cw
    let run := bigStep Config.sentinelByte op (cmdId cw) (cmdArg cw) s.rxrAnswers
    s.readyFor (txLen op + 2 * rxNeed op + 2) (txLen op) (rxNeed op) = true →
    s.cmdOffers = cw :: rest → rxNeed op ≤ s.rxrAnswers.length →
    ∃ t events, step s = .next t ∧ t.phase = .idle ∧ t.cmdOffers = rest
      ∧ t.rxrAnswers = s.rxrAnswers.drop (rxNeed op)
      ∧ t.trace = s.trace ++ events
      ∧ events = .cmd cw :: (run.writes.map .tx ++ readEvents (s.rxrAnswers.take run.reads)
        ++ [.result run.result])

/-- Nothing survives from one command to the next (10_state R20): two idle machines with the same
inputs do the same transfers, whatever their latches, indices, bytes, flags and past.
Inputs and record are the model's choice, log 4, log 6, log 13. -/
def Obligations.NothingSurvivesACommand : Prop :=
  ∀ (s : State) (op : Op) (id : Byte) (arg : Half) (i : BitVec 3) (j : BitVec 2) (b0 b1 : Byte)
    (flags : BitVec 2) (past : List Event), s.phase = .idle →
    let s' := { s with
      opQ := op, idQ := id, argQ := arg, txIdx := i, rxIdx := j, rxB0 := b0, rxB1 := b1
      rxTo := flags, trace := past }
    ∃ t t' events, step s = .next t ∧ step s' = .next t'
      ∧ t.trace = s.trace ++ events ∧ t'.trace = past ++ events
      ∧ t'.phase = t.phase ∧ t'.rst = t.rst ∧ t'.cmdOffers = t.cmdOffers
      ∧ t'.txAllow = t.txAllow ∧ t'.rxqAllow = t.rxqAllow ∧ t'.rxrAnswers = t.rxrAnswers
      ∧ t'.rspAllow = t.rspAllow

/-- The fields a command ignores have no effect on the bytes, the reads or the result (30_encoding R61),
whatever the link and the host do.
The record is the model's own, log 13. -/
def Obligations.IgnoredFieldsHaveNoEffect : Prop :=
  ∀ (i j : Instr) (s : State),
    (∃ id arg id' arg', i = .exitSafeStart id arg ∧ j = .exitSafeStart id' arg')
      ∨ (∃ id id' speed, i = .setMotorSpeed id speed ∧ j = .setMotorSpeed id' speed)
      ∨ (∃ id arg id' arg', i = .detectBaudRate id arg ∧ j = .detectBaudRate id' arg')
      ∨ (∃ variableId arg arg', i = .getVariable variableId arg ∧ j = .getVariable variableId arg')
      ∨ (∃ id arg id' arg', i = .reservedOp5 id arg ∧ j = .reservedOp5 id' arg')
      ∨ (∃ id arg id' arg', i = .reservedOp6 id arg ∧ j = .reservedOp6 id' arg')
      ∨ (∃ id arg id' arg', i = .reservedOp7 id arg ∧ j = .reservedOp7 id' arg') →
    ∃ t t', exec i s = .next t ∧ exec j s = .next t' ∧ txStream t.trace = txStream t'.trace
      ∧ readCount t.trace = readCount t'.trace ∧ resultStream t.trace = resultStream t'.trace
      ∧ t.phase = t'.phase

/-- The end of a run (70_reset_and_hazards R190): any number of commands, offered in order to a ready
block with enough answers, take one step each; then the block is in IDLE, the TX stream has grown
by the frames in order, the reads are those the commands need, and one result a command has been
delivered, in order.
One step a command, the inputs and the record are the model's choice, log 4, log 5, log 13. -/
def Obligations.RunOfCommands : Prop :=
  ∀ s : State, s.phase = .idle → s.rst = [] → s.txAllow = none → s.rxqAllow = none →
    s.rspAllow = none → expectedReads s.cmdOffers ≤ s.rxrAnswers.length →
    ∃ t, Host.Core.run Sys2Proof.core s.cmdOffers.length s = .next t ∧ t.phase = .idle
      ∧ t.cmdOffers = [] ∧ t.rxrAnswers = s.rxrAnswers.drop (expectedReads s.cmdOffers)
      ∧ txStream t.trace = txStream s.trace
        ++ s.cmdOffers.flatMap (fun cw => frameOf (cmdOp cw) (cmdId cw) (cmdArg cw))
      ∧ readCount t.trace = readCount s.trace + expectedReads s.cmdOffers
      ∧ resultStream t.trace = resultStream s.trace
        ++ expectedResults Config.sentinelByte s.cmdOffers s.rxrAnswers

/-- A run under the launch premises on the block, its link and its operands (70_reset_and_hazards
R189, P1, P2, P5 and P7) with a host that takes its results: resets may come, in IDLE only, and cost
no command. Some steps, at most one for each command and each sample of `rst`, end in IDLE with
every command done in order; every command but a reserved one reads back from its own frame, so the
bytes sent say what the host asked for. P3, P4 and P6 are about agents outside the block and are
not needed for it (log 20).
One step a command, the inputs and the record are the model's choice, log 4, log 5, log 6, log 13. -/
def Obligations.LaunchPremisesSuffice : Prop :=
  ∀ s : State, s.idleAtLaunch = true → s.noResetInCommand = true → s.operandsInDomain = true →
    s.linkServes = true → s.hostTakesResults = true →
    ∃ k t, k ≤ s.cmdOffers.length + s.rst.length
      ∧ Host.Core.run Sys2Proof.core k s = .next t ∧ t.phase = .idle ∧ t.cmdOffers = []
      ∧ txStream t.trace = txStream s.trace ++ expectedBytes s.cmdOffers
      ∧ readCount t.trace = readCount s.trace + expectedReads s.cmdOffers
      ∧ resultStream t.trace = resultStream s.trace
        ++ expectedResults Config.sentinelByte s.cmdOffers s.rxrAnswers
      ∧ ∀ cw ∈ s.cmdOffers, (cmdOp cw).toNat ≤ 4 →
        readFrame (frameOf (cmdOp cw) (cmdId cw) (cmdArg cw))
          = commandOf (cmdOp cw) (cmdId cw) (cmdArg cw)
end

