-- ==== Sys2Proof/Laws/State.lean ====
section
/-! SUPPORT. One lemma for each field of each update of the state, so that no proof unfolds a record
update. -/

namespace Sys2Proof.Machine

variable (s : State)

/-! ### ACCEPT (42_command_sequencer R127) -/

@[simp] theorem State.accepted_phase (op : Op) (id : Byte) (arg : Half) :
    (s.accepted op id arg).phase = if op.toNat ≤ 4 then .tx else .done := rfl
@[simp] theorem State.accepted_opQ (op : Op) (id : Byte) (arg : Half) : (s.accepted op id arg).opQ = op := rfl
@[simp] theorem State.accepted_idQ (op : Op) (id : Byte) (arg : Half) : (s.accepted op id arg).idQ = id := rfl
@[simp] theorem State.accepted_argQ (op : Op) (id : Byte) (arg : Half) :
    (s.accepted op id arg).argQ = arg := rfl
@[simp] theorem State.accepted_txIdx (op : Op) (id : Byte) (arg : Half) :
    (s.accepted op id arg).txIdx = 0 := rfl
@[simp] theorem State.accepted_rxIdx (op : Op) (id : Byte) (arg : Half) :
    (s.accepted op id arg).rxIdx = 0 := rfl
@[simp] theorem State.accepted_rxB0 (op : Op) (id : Byte) (arg : Half) :
    (s.accepted op id arg).rxB0 = s.rxB0 := rfl
@[simp] theorem State.accepted_rxB1 (op : Op) (id : Byte) (arg : Half) :
    (s.accepted op id arg).rxB1 = s.rxB1 := rfl
@[simp] theorem State.accepted_rxTo (op : Op) (id : Byte) (arg : Half) :
    (s.accepted op id arg).rxTo = 0 := rfl
@[simp] theorem State.accepted_rst (op : Op) (id : Byte) (arg : Half) :
    (s.accepted op id arg).rst = s.rst := rfl
@[simp] theorem State.accepted_cmdOffers (op : Op) (id : Byte) (arg : Half) :
    (s.accepted op id arg).cmdOffers = s.cmdOffers.tail := rfl
@[simp] theorem State.accepted_txAllow (op : Op) (id : Byte) (arg : Half) :
    (s.accepted op id arg).txAllow = s.txAllow := rfl
@[simp] theorem State.accepted_rxqAllow (op : Op) (id : Byte) (arg : Half) :
    (s.accepted op id arg).rxqAllow = s.rxqAllow := rfl
@[simp] theorem State.accepted_rxrAnswers (op : Op) (id : Byte) (arg : Half) :
    (s.accepted op id arg).rxrAnswers = s.rxrAnswers := rfl
@[simp] theorem State.accepted_rspAllow (op : Op) (id : Byte) (arg : Half) :
    (s.accepted op id arg).rspAllow = s.rspAllow := rfl
@[simp] theorem State.accepted_trace (op : Op) (id : Byte) (arg : Half) :
    (s.accepted op id arg).trace = s.trace ++ [.cmd (cmdWord op id arg)] := rfl
@[simp] theorem State.accepted_freeCount (op : Op) (id : Byte) (arg : Half) :
    (s.accepted op id arg).freeCount = s.freeCount := rfl

/-! ### SEND (R128) -/

@[simp] theorem State.sent_phase (len : Nat) (b : Byte) :
    (s.sent len b).phase = if s.txIdx.toNat + 1 = len then (if rxNeed s.opQ = 0 then .done else .rxq) else s.phase := rfl
@[simp] theorem State.sent_opQ (len : Nat) (b : Byte) : (s.sent len b).opQ = s.opQ := rfl
@[simp] theorem State.sent_idQ (len : Nat) (b : Byte) : (s.sent len b).idQ = s.idQ := rfl
@[simp] theorem State.sent_argQ (len : Nat) (b : Byte) : (s.sent len b).argQ = s.argQ := rfl
@[simp] theorem State.sent_txIdx (len : Nat) (b : Byte) : (s.sent len b).txIdx = s.txIdx + 1 := rfl
@[simp] theorem State.sent_rxIdx (len : Nat) (b : Byte) : (s.sent len b).rxIdx = s.rxIdx := rfl
@[simp] theorem State.sent_rxB0 (len : Nat) (b : Byte) : (s.sent len b).rxB0 = s.rxB0 := rfl
@[simp] theorem State.sent_rxB1 (len : Nat) (b : Byte) : (s.sent len b).rxB1 = s.rxB1 := rfl
@[simp] theorem State.sent_rxTo (len : Nat) (b : Byte) : (s.sent len b).rxTo = s.rxTo := rfl
@[simp] theorem State.sent_rst (len : Nat) (b : Byte) : (s.sent len b).rst = s.rst := rfl
@[simp] theorem State.sent_cmdOffers (len : Nat) (b : Byte) : (s.sent len b).cmdOffers = s.cmdOffers := rfl
@[simp] theorem State.sent_txAllow (len : Nat) (b : Byte) : (s.sent len b).txAllow = spend 1 s.txAllow := rfl
@[simp] theorem State.sent_rxqAllow (len : Nat) (b : Byte) : (s.sent len b).rxqAllow = s.rxqAllow := rfl
@[simp] theorem State.sent_rxrAnswers (len : Nat) (b : Byte) : (s.sent len b).rxrAnswers = s.rxrAnswers := rfl
@[simp] theorem State.sent_rspAllow (len : Nat) (b : Byte) : (s.sent len b).rspAllow = s.rspAllow := rfl
@[simp] theorem State.sent_trace (len : Nat) (b : Byte) : (s.sent len b).trace = s.trace ++ [.tx b] := rfl
@[simp] theorem State.sent_freeCount (len : Nat) (b : Byte) : (s.sent len b).freeCount = s.freeCount := rfl

/-! ### REQ (R129) -/

@[simp] theorem State.requested_phase : (s.requested).phase = .rxr := rfl
@[simp] theorem State.requested_opQ : (s.requested).opQ = s.opQ := rfl
@[simp] theorem State.requested_idQ : (s.requested).idQ = s.idQ := rfl
@[simp] theorem State.requested_argQ : (s.requested).argQ = s.argQ := rfl
@[simp] theorem State.requested_txIdx : (s.requested).txIdx = s.txIdx := rfl
@[simp] theorem State.requested_rxIdx : (s.requested).rxIdx = s.rxIdx := rfl
@[simp] theorem State.requested_rxB0 : (s.requested).rxB0 = s.rxB0 := rfl
@[simp] theorem State.requested_rxB1 : (s.requested).rxB1 = s.rxB1 := rfl
@[simp] theorem State.requested_rxTo : (s.requested).rxTo = s.rxTo := rfl
@[simp] theorem State.requested_rst : (s.requested).rst = s.rst := rfl
@[simp] theorem State.requested_cmdOffers : (s.requested).cmdOffers = s.cmdOffers := rfl
@[simp] theorem State.requested_txAllow : (s.requested).txAllow = s.txAllow := rfl
@[simp] theorem State.requested_rxqAllow : (s.requested).rxqAllow = spend 1 s.rxqAllow := rfl
@[simp] theorem State.requested_rxrAnswers : (s.requested).rxrAnswers = s.rxrAnswers := rfl
@[simp] theorem State.requested_rspAllow : (s.requested).rspAllow = s.rspAllow := rfl
@[simp] theorem State.requested_trace : (s.requested).trace = s.trace ++ [.readRequest] := rfl
@[simp] theorem State.requested_freeCount : (s.requested).freeCount = s.freeCount := rfl

/-! ### RECV (R130) -/

@[simp] theorem State.received_phase (a : Option Byte) :
    (s.received a).phase = if s.rxIdx.toNat + 1 = rxNeed s.opQ then .done else .rxq := rfl
@[simp] theorem State.received_opQ (a : Option Byte) : (s.received a).opQ = s.opQ := rfl
@[simp] theorem State.received_idQ (a : Option Byte) : (s.received a).idQ = s.idQ := rfl
@[simp] theorem State.received_argQ (a : Option Byte) : (s.received a).argQ = s.argQ := rfl
@[simp] theorem State.received_txIdx (a : Option Byte) : (s.received a).txIdx = s.txIdx := rfl
@[simp] theorem State.received_rxIdx (a : Option Byte) : (s.received a).rxIdx = s.rxIdx + 1 := rfl
@[simp] theorem State.received_rxB0 (a : Option Byte) :
    (s.received a).rxB0 = if s.rxIdx.toNat = 0 then sub Config.sentinelByte a else s.rxB0 := rfl
@[simp] theorem State.received_rxB1 (a : Option Byte) :
    (s.received a).rxB1 = if s.rxIdx.toNat = 1 then sub Config.sentinelByte a else s.rxB1 := rfl
@[simp] theorem State.received_rxTo (a : Option Byte) :
    (s.received a).rxTo = setFlag s.rxTo s.rxIdx (absentBit a) := rfl
@[simp] theorem State.received_rst (a : Option Byte) : (s.received a).rst = s.rst := rfl
@[simp] theorem State.received_cmdOffers (a : Option Byte) : (s.received a).cmdOffers = s.cmdOffers := rfl
@[simp] theorem State.received_txAllow (a : Option Byte) : (s.received a).txAllow = s.txAllow := rfl
@[simp] theorem State.received_rxqAllow (a : Option Byte) : (s.received a).rxqAllow = s.rxqAllow := rfl
@[simp] theorem State.received_rxrAnswers (a : Option Byte) :
    (s.received a).rxrAnswers = s.rxrAnswers.tail := rfl
@[simp] theorem State.received_rspAllow (a : Option Byte) : (s.received a).rspAllow = s.rspAllow := rfl
@[simp] theorem State.received_trace (a : Option Byte) :
    (s.received a).trace = s.trace ++ [.readAnswer a] := rfl
@[simp] theorem State.received_freeCount (a : Option Byte) : (s.received a).freeCount = s.freeCount := rfl

/-! ### DELIVER (R131) -/

@[simp] theorem State.delivered_phase : (s.delivered).phase = .idle := rfl
@[simp] theorem State.delivered_opQ : (s.delivered).opQ = s.opQ := rfl
@[simp] theorem State.delivered_idQ : (s.delivered).idQ = s.idQ := rfl
@[simp] theorem State.delivered_argQ : (s.delivered).argQ = s.argQ := rfl
@[simp] theorem State.delivered_txIdx : (s.delivered).txIdx = s.txIdx := rfl
@[simp] theorem State.delivered_rxIdx : (s.delivered).rxIdx = s.rxIdx := rfl
@[simp] theorem State.delivered_rxB0 : (s.delivered).rxB0 = s.rxB0 := rfl
@[simp] theorem State.delivered_rxB1 : (s.delivered).rxB1 = s.rxB1 := rfl
@[simp] theorem State.delivered_rxTo : (s.delivered).rxTo = s.rxTo := rfl
@[simp] theorem State.delivered_rst : (s.delivered).rst = s.rst := rfl
@[simp] theorem State.delivered_cmdOffers : (s.delivered).cmdOffers = s.cmdOffers := rfl
@[simp] theorem State.delivered_txAllow : (s.delivered).txAllow = s.txAllow := rfl
@[simp] theorem State.delivered_rxqAllow : (s.delivered).rxqAllow = s.rxqAllow := rfl
@[simp] theorem State.delivered_rxrAnswers : (s.delivered).rxrAnswers = s.rxrAnswers := rfl
@[simp] theorem State.delivered_rspAllow : (s.delivered).rspAllow = spend 1 s.rspAllow := rfl
@[simp] theorem State.delivered_trace : (s.delivered).trace = s.trace ++ [.result s.rspRecord] := rfl
@[simp] theorem State.delivered_freeCount : (s.delivered).freeCount = s.freeCount := rfl

/-! ### reset (70_reset_and_hazards R175) -/

@[simp] theorem State.resetDone_phase : (s.resetDone).phase = .idle := rfl
@[simp] theorem State.resetDone_opQ : (s.resetDone).opQ = Config.resetOpQ s.freeCount := rfl
@[simp] theorem State.resetDone_idQ : (s.resetDone).idQ = Config.resetIdQ s.freeCount := rfl
@[simp] theorem State.resetDone_argQ : (s.resetDone).argQ = Config.resetArgQ s.freeCount := rfl
@[simp] theorem State.resetDone_txIdx : (s.resetDone).txIdx = Config.resetTxIdx s.freeCount := rfl
@[simp] theorem State.resetDone_rxIdx : (s.resetDone).rxIdx = Config.resetRxIdx s.freeCount := rfl
@[simp] theorem State.resetDone_rxB0 : (s.resetDone).rxB0 = Config.resetRxB0 s.freeCount := rfl
@[simp] theorem State.resetDone_rxB1 : (s.resetDone).rxB1 = Config.resetRxB1 s.freeCount := rfl
@[simp] theorem State.resetDone_rxTo : (s.resetDone).rxTo = Config.resetRxTo s.freeCount := rfl
@[simp] theorem State.resetDone_rst : (s.resetDone).rst = s.rst := rfl
@[simp] theorem State.resetDone_cmdOffers : (s.resetDone).cmdOffers = s.cmdOffers := rfl
@[simp] theorem State.resetDone_txAllow : (s.resetDone).txAllow = s.txAllow := rfl
@[simp] theorem State.resetDone_rxqAllow : (s.resetDone).rxqAllow = s.rxqAllow := rfl
@[simp] theorem State.resetDone_rxrAnswers : (s.resetDone).rxrAnswers = s.rxrAnswers := rfl
@[simp] theorem State.resetDone_rspAllow : (s.resetDone).rspAllow = s.rspAllow := rfl
@[simp] theorem State.resetDone_trace : (s.resetDone).trace = s.trace ++ [.reset] := rfl
@[simp] theorem State.resetDone_freeCount : (s.resetDone).freeCount = s.freeCount + 1 := rfl

/-! ### the sampling of rst -/

@[simp] theorem State.rstRead_phase : (s.rstRead).phase = s.phase := rfl
@[simp] theorem State.rstRead_opQ : (s.rstRead).opQ = s.opQ := rfl
@[simp] theorem State.rstRead_idQ : (s.rstRead).idQ = s.idQ := rfl
@[simp] theorem State.rstRead_argQ : (s.rstRead).argQ = s.argQ := rfl
@[simp] theorem State.rstRead_txIdx : (s.rstRead).txIdx = s.txIdx := rfl
@[simp] theorem State.rstRead_rxIdx : (s.rstRead).rxIdx = s.rxIdx := rfl
@[simp] theorem State.rstRead_rxB0 : (s.rstRead).rxB0 = s.rxB0 := rfl
@[simp] theorem State.rstRead_rxB1 : (s.rstRead).rxB1 = s.rxB1 := rfl
@[simp] theorem State.rstRead_rxTo : (s.rstRead).rxTo = s.rxTo := rfl
@[simp] theorem State.rstRead_rst : (s.rstRead).rst = s.rst.tail := rfl
@[simp] theorem State.rstRead_cmdOffers : (s.rstRead).cmdOffers = s.cmdOffers := rfl
@[simp] theorem State.rstRead_txAllow : (s.rstRead).txAllow = s.txAllow := rfl
@[simp] theorem State.rstRead_rxqAllow : (s.rstRead).rxqAllow = s.rxqAllow := rfl
@[simp] theorem State.rstRead_rxrAnswers : (s.rstRead).rxrAnswers = s.rxrAnswers := rfl
@[simp] theorem State.rstRead_rspAllow : (s.rstRead).rspAllow = s.rspAllow := rfl
@[simp] theorem State.rstRead_trace : (s.rstRead).trace = s.trace := rfl
@[simp] theorem State.rstRead_freeCount : (s.rstRead).freeCount = s.freeCount := rfl

end Sys2Proof.Machine
end

