-- ==== Sys2Proof/Laws/Ops.lean ====
section
/-! SUPPORT. For each shared operation, once, everything it can do. -/

namespace Sys2Proof.Machine

variable {s : State}

/-! ### The encoder's table at each selector (40_command_encoder R90, 42_command_sequencer R126) -/

@[simp] theorem frameOf_exitSafeStart (id : Byte) (arg : Half) : frameOf 0#3 id arg = [0x83] := rfl
@[simp] theorem frameOf_motorSpeed (id : Byte) (arg : Half) :
    frameOf 1#3 id arg = [speedOpcode arg, low5 (mag arg), high7 (mag arg)] := rfl
@[simp] theorem frameOf_limit (id : Byte) (arg : Half) :
    frameOf 2#3 id arg = [0xA2, id, low7 arg, high5 arg] := rfl
@[simp] theorem frameOf_detectBaudRate (id : Byte) (arg : Half) : frameOf 3#3 id arg = [0xAA] := rfl
@[simp] theorem frameOf_variable (id : Byte) (arg : Half) : frameOf 4#3 id arg = [0xA1, id] := rfl

@[simp] theorem txLen_0 : txLen 0#3 = 1 := rfl
@[simp] theorem responseClass_0 : responseClass 0#3 = .none := rfl
@[simp] theorem rxNeed_0 : rxNeed 0#3 = 0 := rfl
@[simp] theorem txLen_1 : txLen 1#3 = 3 := rfl
@[simp] theorem responseClass_1 : responseClass 1#3 = .none := rfl
@[simp] theorem rxNeed_1 : rxNeed 1#3 = 0 := rfl
@[simp] theorem txLen_2 : txLen 2#3 = 4 := rfl
@[simp] theorem responseClass_2 : responseClass 2#3 = .status := rfl
@[simp] theorem rxNeed_2 : rxNeed 2#3 = 1 := rfl
@[simp] theorem txLen_3 : txLen 3#3 = 1 := rfl
@[simp] theorem responseClass_3 : responseClass 3#3 = .none := rfl
@[simp] theorem rxNeed_3 : rxNeed 3#3 = 0 := rfl
@[simp] theorem txLen_4 : txLen 4#3 = 2 := rfl
@[simp] theorem responseClass_4 : responseClass 4#3 = .variable := rfl
@[simp] theorem rxNeed_4 : rxNeed 4#3 = 2 := rfl
@[simp] theorem txLen_5 : txLen 5#3 = 0 := rfl
@[simp] theorem responseClass_5 : responseClass 5#3 = .illegal := rfl
@[simp] theorem rxNeed_5 : rxNeed 5#3 = 0 := rfl
@[simp] theorem txLen_6 : txLen 6#3 = 0 := rfl
@[simp] theorem responseClass_6 : responseClass 6#3 = .illegal := rfl
@[simp] theorem rxNeed_6 : rxNeed 6#3 = 0 := rfl
@[simp] theorem txLen_7 : txLen 7#3 = 0 := rfl
@[simp] theorem responseClass_7 : responseClass 7#3 = .illegal := rfl
@[simp] theorem rxNeed_7 : rxNeed 7#3 = 0 := rfl

theorem frameOf_length (op : Op) (id : Byte) (arg : Half) : (frameOf op id arg).length = txLen op := by
  unfold frameOf txLen
  split <;> rfl

theorem txLen_pos_of_command {op : Op} (h : op.toNat ≤ 4) : 0 < txLen op := by
  revert h; revert op; decide

theorem txLen_le_four (op : Op) : txLen op ≤ 4 := by revert op; decide

theorem rxNeed_le_two (op : Op) : rxNeed op ≤ 2 := by revert op; decide

@[simp] theorem commandOf_exitSafeStart (id : Byte) (arg : Half) :
    commandOf 0#3 id arg = some .exitSafeStart := rfl
@[simp] theorem commandOf_motorSpeed (id : Byte) (arg : Half) :
    commandOf 1#3 id arg = some (.setMotorSpeed arg.toInt) := rfl
@[simp] theorem commandOf_limit (id : Byte) (arg : Half) :
    commandOf 2#3 id arg = some (.setLimit id arg.toNat) := rfl
@[simp] theorem commandOf_detectBaudRate (id : Byte) (arg : Half) :
    commandOf 3#3 id arg = some .detectBaudRate := rfl
@[simp] theorem commandOf_variable (id : Byte) (arg : Half) :
    commandOf 4#3 id arg = some (.getVariable id) := rfl

/-- A byte sequence says a command exactly when it is a frame row and the row says it: no other row
decodes in the space of frames. -/
theorem readFrame_eq_some_iff (f : List Byte) (c : ProtocolCommand) :
    readFrame f = some c ↔ ∃ i, decodeFrame f = .ok i ∧ commandOfRow i = some c := by
  unfold readFrame
  split <;> simp_all

/-! ### Allowances -/

@[simp] theorem allows_none : allows none = true := rfl
@[simp] theorem allows_some (n : Nat) : allows (some n) = decide (0 < n) := rfl
@[simp] theorem spend_none (n : Nat) : spend n none = none := rfl
@[simp] theorem spend_some (n m : Nat) : spend n (some m) = some (m - n) := rfl
@[simp] theorem spend_spend (m n : Nat) (a : Option Nat) : spend m (spend n a) = spend (n + m) a := by
  cases a with
  | none => rfl
  | some k => simp only [spend_some, Option.some.injEq]; omega

/-! ### Absence flags (10_state R24) -/

@[simp] theorem setFlag_zero (flags : BitVec 2) (b : Bool) :
    setFlag flags 0#2 b = flagPair (flags.getLsbD 1) b := rfl
@[simp] theorem setFlag_one (flags : BitVec 2) (b : Bool) :
    setFlag flags 1#2 b = flagPair b (flags.getLsbD 0) := rfl
@[simp] theorem flagPair_bit0 (b1 b0 : Bool) : (flagPair b1 b0).getLsbD 0 = b0 := by
  cases b1 <;> cases b0 <;> rfl
@[simp] theorem flagPair_bit1 (b1 b0 : Bool) : (flagPair b1 b0).getLsbD 1 = b1 := by
  cases b1 <;> cases b0 <;> rfl
@[simp] theorem flagPair_getElem0 (b1 b0 : Bool) : (flagPair b1 b0)[0] = b0 := by
  cases b1 <;> cases b0 <;> rfl
@[simp] theorem flagPair_getElem1 (b1 b0 : Bool) : (flagPair b1 b0)[1] = b1 := by
  cases b1 <;> cases b0 <;> rfl
@[simp] theorem flagPair_eq_zero (b1 b0 : Bool) : flagPair b1 b0 = 0#2 ↔ b1 = false ∧ b0 = false := by
  revert b1 b0; decide
@[simp] theorem sub_some (sentinel b : Byte) : sub sentinel (some b) = b := rfl
@[simp] theorem sub_none (sentinel : Byte) : sub sentinel none = sentinel := rfl
@[simp] theorem absentBit_some (b : Byte) : absentBit (some b) = false := rfl
@[simp] theorem absentBit_none : absentBit none = true := rfl

/-! ### The transfers: each does its writes where it is enabled, and nothing otherwise -/

theorem accept_cases (op : Op) (id : Byte) (arg : Half) (s : State) :
    (s.phase = .idle ∧ accept op id arg s = s.accepted op id arg)
      ∨ (s.phase ≠ .idle ∧ accept op id arg s = s) := by
  by_cases h : s.phase = .idle
  · exact .inl ⟨h, if_pos h⟩
  · exact .inr ⟨h, if_neg h⟩

theorem send_cases (f : List Byte) (s : State) :
    (∃ b, s.phase = .tx ∧ s.txReady = true ∧ f[s.txIdx.toNat]? = some b
        ∧ send f s = s.sent f.length b)
      ∨ ((s.phase ≠ .tx ∨ s.txReady = false ∨ f.length ≤ s.txIdx.toNat) ∧ send f s = s) := by
  by_cases h : s.phase = .tx ∧ s.txReady = true
  · cases hb : f[s.txIdx.toNat]? with
    | some b => exact .inl ⟨b, h.1, h.2, rfl, by simp [send, h, hb]⟩
    | none => exact .inr ⟨.inr (.inr (List.getElem?_eq_none_iff.mp hb)), by simp [send, h, hb]⟩
  · refine .inr ⟨?_, if_neg h⟩
    rcases not_and_or.mp h with h | h
    · exact .inl h
    · exact .inr (.inl (by simpa using h))

theorem request_cases (s : State) :
    (s.phase = .rxq ∧ s.rxqReady = true ∧ request s = s.requested)
      ∨ ((s.phase ≠ .rxq ∨ s.rxqReady = false) ∧ request s = s) := by
  by_cases h : s.phase = .rxq ∧ s.rxqReady = true
  · exact .inl ⟨h.1, h.2, if_pos h⟩
  · exact .inr ⟨by simpa using not_and_or.mp h, if_neg h⟩

theorem receive_cases (a : Option Byte) (s : State) :
    (s.phase = .rxr ∧ s.rxIdx.toNat < 2 ∧ receive a s = s.received a)
      ∨ ((s.phase ≠ .rxr ∨ 2 ≤ s.rxIdx.toNat) ∧ receive a s = s) := by
  by_cases h : s.phase = .rxr ∧ s.rxIdx.toNat < 2
  · exact .inl ⟨h.1, h.2, if_pos h⟩
  · exact .inr ⟨(not_and_or.mp h).imp_right Nat.le_of_not_lt, if_neg h⟩

theorem deliver_cases (s : State) :
    (s.phase = .done ∧ s.rspReady = true ∧ deliver s = s.delivered)
      ∨ ((s.phase ≠ .done ∨ s.rspReady = false) ∧ deliver s = s) := by
  by_cases h : s.phase = .done ∧ s.rspReady = true
  · exact .inl ⟨h.1, h.2, if_pos h⟩
  · exact .inr ⟨by simpa using not_and_or.mp h, if_neg h⟩

/-- At an opportunity either the reset or the transfer happens, after one sample of `rst`. -/
theorem opportunity_cases (f : State → State) (s : State) :
    (s.rst.headD false = true ∧ opportunity f s = s.rstRead.resetDone)
      ∨ (s.rst.headD false = false ∧ opportunity f s = f s.rstRead) := by
  cases h : s.rst.headD false with
  | true => exact .inl ⟨rfl, if_pos h⟩
  | false => exact .inr ⟨rfl, if_neg (by rw [h]; exact Bool.false_ne_true)⟩

/-- Everything one transfer can do, by phase (42_command_sequencer R127 to R131). -/
theorem transferOf_cases (s : State) :
    (∃ cw, s.phase = .idle ∧ s.cmdOffers.head? = some cw
        ∧ transferOf s = s.accepted (cmdOp cw) (cmdId cw) (cmdArg cw))
      ∨ (∃ b, s.phase = .tx ∧ s.txReady = true ∧ s.txData = some b
        ∧ transferOf s = s.sent (txLen s.opQ) b)
      ∨ (s.phase = .rxq ∧ s.rxqReady = true ∧ transferOf s = s.requested)
      ∨ (∃ a, s.phase = .rxr ∧ s.rxrAnswers.head? = some a ∧ s.rxIdx.toNat < 2
        ∧ transferOf s = s.received a)
      ∨ (s.phase = .done ∧ s.rspReady = true ∧ transferOf s = s.delivered)
      ∨ transferOf s = s := by
  cases hp : s.phase with
  | idle =>
    cases hc : s.cmdOffers.head? with
    | none => simp [transferOf, hp, State.cmdOffered, hc]
    | some cw => exact .inl ⟨cw, rfl, rfl, by simp [transferOf, hp, State.cmdOffered, hc, accept]⟩
  | tx =>
    rcases send_cases s.currentFrame s with ⟨b, _, h1, h2, h3⟩ | ⟨_, h⟩
    · refine .inr (.inl ⟨b, rfl, h1, h2, ?_⟩)
      simpa [transferOf, hp, State.currentFrame, frameOf_length] using h3
    · simp [transferOf, hp, h]
  | rxq =>
    rcases request_cases s with ⟨_, h1, h2⟩ | ⟨_, h⟩
    · simp [transferOf, hp, h1, h2]
    · simp [transferOf, hp, h]
  | rxr =>
    cases hc : s.rxrAnswers.head? with
    | none => simp [transferOf, hp, State.answerOffered, hc]
    | some a =>
      rcases receive_cases a s with ⟨_, h1, h2⟩ | ⟨_, h⟩
      · exact .inr (.inr (.inr (.inl ⟨a, rfl, rfl, h1, by
          simp [transferOf, hp, State.answerOffered, hc, h2]⟩)))
      · simp [transferOf, hp, State.answerOffered, hc, h]
  | done =>
    rcases deliver_cases s with ⟨_, h1, h2⟩ | ⟨_, h⟩
    · simp [transferOf, hp, h1, h2]
    · simp [transferOf, hp, h]

/-! ### Runs: what every transfer opportunity keeps, the run keeps -/

theorem times_keeps {P : State → Prop} {f : State → State} (hf : ∀ s, P s → P (f s)) :
    ∀ n s, P s → P (times n f s)
  | 0, _, h => h
  | n + 1, s, h => times_keeps hf n (f s) (hf s h)

theorem times_of_fixed {f : State → State} (h : f s = s) : ∀ n, times n f s = s
  | 0 => rfl
  | n + 1 => by rw [times, h, times_of_fixed h n]

theorem sendNext_of_not_tx (f : List Byte) (h : s.phase ≠ .tx) : sendNext f s = s := if_neg h

theorem sendFrame_of_not_tx (f : List Byte) (h : s.phase ≠ .tx) : sendFrame f s = s :=
  times_of_fixed (sendNext_of_not_tx f h) 4

/-- A property that each SEND opportunity keeps in phase TX is kept by sending a frame. -/
theorem sendFrame_keeps {P : State → Prop} (f : List Byte)
    (hf : ∀ s, s.phase = .tx → P s → P (opportunity (send f) s)) (h : P s) : P (sendFrame f s) := by
  refine times_keeps (fun s hs => ?_) 4 s h
  by_cases hp : s.phase = .tx
  · simpa [sendNext, hp] using hf s hp hs
  · simpa [sendNext, hp] using hs

theorem requestNext_of_not_rxq (h : s.phase ≠ .rxq) : requestNext s = s := if_neg h

theorem receiveNext_of_not_rxr (a : Option Byte) (h : s.phase ≠ .rxr) : receiveNext a s = s := if_neg h

theorem receiveOffered_of_not_rxr (h : s.phase ≠ .rxr) : receiveOffered s = s := by
  unfold receiveOffered
  split
  · exact receiveNext_of_not_rxr _ h
  · exact if_neg h

theorem readWith_of_not_reading (a : Option Byte) (hq : s.phase ≠ .rxq) (hr : s.phase ≠ .rxr) :
    readWith a s = s := by
  rw [readWith, requestNext_of_not_rxq hq, receiveNext_of_not_rxr a hr]

theorem readNext_of_not_reading (hq : s.phase ≠ .rxq) (hr : s.phase ≠ .rxr) : readNext s = s := by
  rw [readNext, requestNext_of_not_rxq hq, receiveOffered_of_not_rxr hr]

theorem readResponse_of_not_reading (hq : s.phase ≠ .rxq) (hr : s.phase ≠ .rxr) :
    readResponse s = s :=
  times_of_fixed (readNext_of_not_reading hq hr) 2

/-- A read whose answer the link has ready is the read with that answer. -/
theorem readNext_eq_readWith {a : Option Byte} {rest : List (Option Byte)}
    (h : s.rxrAnswers = a :: rest) : readNext s = readWith a s := by
  have hq : (requestNext s).rxrAnswers = a :: rest := by
    unfold requestNext
    split
    · rcases opportunity_cases request s with ⟨_, e⟩ | ⟨_, e⟩
      · simpa [e] using h
      · rcases request_cases s.rstRead with ⟨_, _, e'⟩ | ⟨_, e'⟩ <;> simpa [e, e'] using h
    · exact h
  simp [readNext, readWith, receiveOffered, State.answerOffered, hq]

/-- A property that each REQ and each RECV opportunity keeps is kept by the reads of a response. -/
theorem readResponse_keeps {P : State → Prop}
    (hq : ∀ s, s.phase = .rxq → P s → P (opportunity request s))
    (hr : ∀ s a, s.phase = .rxr → s.rxrAnswers.head? = some a → P s → P (opportunity (receive a) s))
    (hw : ∀ s, s.phase = .rxr → s.rxrAnswers.head? = none → P s → P (opportunity id s))
    (h : P s) : P (readResponse s) := by
  refine times_keeps (fun s hs => ?_) 2 s h
  have h1 : P (requestNext s) := by
    unfold requestNext
    split
    · exact hq s ‹_› hs
    · exact hs
  unfold readNext receiveOffered
  split
  · unfold receiveNext
    split
    · exact hr _ _ ‹_› ‹_› h1
    · exact h1
  · split
    · exact hw _ ‹_› ‹_› h1
    · exact h1

theorem deliverResult_of_not_done (h : s.phase ≠ .done) : deliverResult s = s := if_neg h

theorem runCommand_of_busy (op : Op) (id : Byte) (arg : Half) (h : s.phase ≠ .idle) :
    runCommand op id arg s = s := if_neg h

theorem runCommand_of_idle (op : Op) (id : Byte) (arg : Half) (h : s.phase = .idle) :
    runCommand op id arg s = deliverResult (readResponse
      (sendFrame (frameOf op id arg) (opportunity (accept op id arg) s))) := if_pos h

/-! ### The launch premises -/

@[simp] theorem resetsOnlyInIdle_zero (s : State) : s.resetsOnlyInIdle 0 = true := rfl

/-- The next reset comes in IDLE, and the later ones do after this opportunity. -/
theorem resetsOnlyInIdle_succ (n : Nat) (s : State) :
    s.resetsOnlyInIdle (n + 1) = true ↔
      (s.rst.headD false = true → s.phase = .idle) ∧ (clockStep s).resetsOnlyInIdle n = true := by
  cases h : s.rst.headD false <;> simp only [State.resetsOnlyInIdle, h] <;> simp

@[simp] theorem expectedBytes_nil : expectedBytes [] = [] := rfl
@[simp] theorem expectedBytes_cons (cw : CmdWord) (cws : List CmdWord) :
    expectedBytes (cw :: cws) = frameOf (cmdOp cw) (cmdId cw) (cmdArg cw) ++ expectedBytes cws := rfl
@[simp] theorem expectedReads_nil : expectedReads [] = 0 := rfl
@[simp] theorem expectedReads_cons (cw : CmdWord) (cws : List CmdWord) :
    expectedReads (cw :: cws) = rxNeed (cmdOp cw) + expectedReads cws := rfl

/-! ### The step -/

/-- Everything a step can do: run the instruction it fetched, wait, go on reading, deliver, or
fault where there is no frame. -/
theorem step_cases (s : State) :
    (∃ i, fetch s = .instr i ∧ step s = exec i s)
      ∨ (s.phase = .idle ∧ s.cmdOffers = [] ∧ step s = .next (opportunity id s))
      ∨ ((s.phase = .rxq ∨ s.phase = .rxr) ∧ step s = .next (readResponse s))
      ∨ (s.phase = .done ∧ step s = .next (deliverResult s))
      ∨ (s.phase = .tx ∧ (∀ i, decodeFrame s.currentFrame ≠ .ok i) ∧ step s = .fault .noFrame) := by
  cases hf : fetch s with
  | instr i => exact .inl ⟨i, rfl, by simp [step, hf]⟩
  | noCommand =>
    refine .inr (.inl ?_)
    have hs : step s = .next (opportunity id s) := by simp [step, hf]
    revert hf
    unfold fetch fetchResponse
    (repeat' split) <;> simp_all [State.cmdOffered]
  | reads =>
    refine .inr (.inr (.inl ?_))
    have hs : step s = .next (readResponse s) := by simp [step, hf]
    revert hf
    unfold fetch
    (repeat' split) <;> simp_all
  | delivery =>
    refine .inr (.inr (.inr (.inl ?_)))
    have hs : step s = .next (deliverResult s) := by simp [step, hf]
    revert hf
    unfold fetch fetchResponse
    (repeat' split) <;> simp_all
  | nothing =>
    refine .inr (.inr (.inr (.inr ?_)))
    have hs : step s = .fault .noFrame := by simp [step, hf]
    revert hf
    unfold fetch fetchResponse
    (repeat' split) <;> simp_all

end Sys2Proof.Machine
end

