-- ==== Sys2Proof/Laws/PerInstr.lean ====
section
/-! SUPPORT. A statement about every instruction as syntax, one lemma for each constructor. -/

namespace Sys2Proof.Laws.RowShape

/-- The bytes of a row: never none, at most four, and four of them in the space of command words,
whose rows are exactly those with a selector and fields (30_encoding R61, R64, R70). -/
def Statement (i : Instr) : Prop :=
  0 < (encode i).2.length ∧ (encode i).2.length ≤ 4
    ∧ ((encode i).1 = .commandWord ↔ (commandFields i).isSome = true)
    ∧ ((encode i).1 = .commandWord → (encode i).2.length = 4)

theorem frameExitSafeStart : Statement .frameExitSafeStart := by simp [Statement, encode, commandFields]

theorem frameSetSpeedForward (low5 : BitVec 5) (high7 : BitVec 7) :
    Statement (.frameSetSpeedForward low5 high7) := by simp [Statement, encode, commandFields]

theorem frameSetSpeedReverse (low5 : BitVec 5) (high7 : BitVec 7) :
    Statement (.frameSetSpeedReverse low5 high7) := by simp [Statement, encode, commandFields]

theorem frameDetectBaudRate : Statement .frameDetectBaudRate := by simp [Statement, encode, commandFields]

theorem frameSetLimit (limitId : Byte) (low7 : BitVec 7) (high5 : BitVec 5) :
    Statement (.frameSetLimit limitId low7 high5) := by simp [Statement, encode, commandFields]

theorem frameGetVariable (variableId : Byte) : Statement (.frameGetVariable variableId) := by
  simp [Statement, encode, commandFields]

theorem responseStatus (status : Byte) : Statement (.responseStatus status) := by
  simp [Statement, encode, commandFields]

theorem responseVariable (valueLow valueHigh : Byte) :
    Statement (.responseVariable valueLow valueHigh) := by simp [Statement, encode, commandFields]

/-- Four bytes in the space of command words. -/
theorem of_command {i : Instr} {op : Op} {id : Byte} {arg : Half}
    (h : encode i = (.commandWord, cmdBytes op id arg)) (hf : (commandFields i).isSome = true) :
    Statement i := by
  simp [Statement, h, hf, cmdBytes, bytesOfWord]

theorem exitSafeStart (id : Byte) (arg : Half) : Statement (.exitSafeStart id arg) := of_command rfl rfl

theorem setMotorSpeed (id : Byte) (speed : Half) : Statement (.setMotorSpeed id speed) :=
  of_command rfl rfl

theorem setLimit (limitId : Byte) (value : Half) : Statement (.setLimit limitId value) :=
  of_command rfl rfl

theorem detectBaudRate (id : Byte) (arg : Half) : Statement (.detectBaudRate id arg) :=
  of_command rfl rfl

theorem getVariable (variableId : Byte) (arg : Half) : Statement (.getVariable variableId arg) :=
  of_command rfl rfl

theorem reservedOp5 (id : Byte) (arg : Half) : Statement (.reservedOp5 id arg) := of_command rfl rfl

theorem reservedOp6 (id : Byte) (arg : Half) : Statement (.reservedOp6 id arg) := of_command rfl rfl

theorem reservedOp7 (id : Byte) (arg : Half) : Statement (.reservedOp7 id arg) := of_command rfl rfl

theorem setForwardLimit (value : Half) : Statement (.setForwardLimit value) := of_command rfl rfl

theorem setReverseLimit (value : Half) : Statement (.setReverseLimit value) := of_command rfl rfl

theorem setDecelerationLimit (value : Half) : Statement (.setDecelerationLimit value) :=
  of_command rfl rfl

end Sys2Proof.Laws.RowShape
end

