-- ==== Sys2Proof/Tests/Slice0.lean ====
section
/-! SUPPORT. The model's own tests: decoding of words written out from the spec's encodings, one or
two small steps an instruction with values from spec/95_test_vectors.md or a rule, and for each
statement with hypotheses a concrete case that meets them, at the ends of their ranges. -/

namespace Sys2Proof.Tests

open Sys2Proof.Machine

/-! ### Well-formedness refuses the second name of a pseudo-command's word (log 8) -/

theorem test_wellFormed_refuses_set_limit_5 : (Instr.setLimit 5 1000).wellFormed = false := by decide
theorem test_wellFormed_refuses_set_limit_9 : (Instr.setLimit 9 1000).wellFormed = false := by decide
theorem test_wellFormed_refuses_set_limit_2 : (Instr.setLimit 2 500).wellFormed = false := by decide
theorem test_wellFormed_accepts_set_limit_0 : (Instr.setLimit 0 100).wellFormed = true := by decide

/-! ### Decoding: words written out bit by bit from 30_encoding R61, R63, R70, R75 -/

theorem test_decode_frameExitSafeStart :
    decode .frame [0b10000011] = .ok .frameExitSafeStart := by decide
theorem test_decode_frameSetSpeedForward :
    decode .frame [0b10000101, 0b00010010, 0b00100110] = .ok (.frameSetSpeedForward 18 38) := by decide
theorem test_decode_frameSetSpeedReverse :
    decode .frame [0b10000110, 0b00011111, 0b01100011] = .ok (.frameSetSpeedReverse 31 99) := by decide
theorem test_decode_frameDetectBaudRate :
    decode .frame [0b10101010] = .ok .frameDetectBaudRate := by decide
theorem test_decode_frameSetLimit :
    decode .frame [0b10100010, 0b10000000, 0b01111110, 0b00011111]
      = .ok (.frameSetLimit 128 126 31) := by decide
theorem test_decode_frameGetVariable :
    decode .frame [0b10100001, 0b11111111] = .ok (.frameGetVariable 255) := by decide
theorem test_decode_responseStatus :
    decode .response [0b10000001] = .ok (.responseStatus 129) := by decide
theorem test_decode_responseVariable :
    decode .response [0b00000101, 0b00000001] = .ok (.responseVariable 5 1) := by decide

/-- `CW` is `op` in bits 26:24, `id` in 23:16, `arg` in 15:0. -/
theorem test_decode_exitSafeStart :
    decodeCommand 0b000_10101011_1100110111101111 = .exitSafeStart 0xAB 0xCDEF := by decide
theorem test_decode_setMotorSpeed :
    decodeCommand 0b001_01010101_1111111111111111 = .setMotorSpeed 0x55 0xFFFF := by decide
theorem test_decode_setLimit :
    decodeCommand 0b010_11111111_0000000001100100 = .setLimit 255 100 := by decide
theorem test_decode_detectBaudRate :
    decodeCommand 0b011_00000000_0000000000000000 = .detectBaudRate 0 0 := by decide
theorem test_decode_getVariable :
    decodeCommand 0b100_00010100_0001001000110100 = .getVariable 20 0x1234 := by decide
theorem test_decode_reservedOp5 :
    decodeCommand 0b101_00010010_0011010001010110 = .reservedOp5 0x12 0x3456 := by decide
theorem test_decode_reservedOp6 :
    decodeCommand 0b110_00000001_1000000000000000 = .reservedOp6 1 0x8000 := by decide
theorem test_decode_reservedOp7 :
    decodeCommand 0b111_00000000_0000000000000000 = .reservedOp7 0 0 := by decide
theorem test_decode_setForwardLimit :
    decodeCommand 0b010_00000101_0000001111101000 = .setForwardLimit 1000 := by decide
theorem test_decode_setReverseLimit :
    decodeCommand 0b010_00001001_0000100000000000 = .setReverseLimit 2048 := by decide
theorem test_decode_setDecelerationLimit :
    decodeCommand 0b010_00000010_0000000111110100 = .setDecelerationLimit 500 := by decide

/-- The table's numbering: byte 0 of the command word in bits 7:0 (30_encoding R75). -/
theorem test_decodeTableWord_command :
    decodeTableWord 32 0x20503E8 = some (.setForwardLimit 1000) := by decide
theorem test_decodeTableWord_frame :
    decodeTableWord 24 0x261285 = some (.frameSetSpeedForward 18 38) := by decide
theorem test_decodeTableWord_response :
    decodeTableWord 8 0x00 = some (.responseStatus 0) := by decide

/-! Refused by name: 30_encoding R64, R72, R76 -/

theorem test_decode_refuses_no_byte : decode .frame [] = .error .empty := by decide
theorem test_decode_refuses_unknown_opcode :
    decode .frame [0x84] = .error (.unknownOpcode 0x84) := by decide
theorem test_decode_refuses_high_payload_bit :
    decode .frame [0x85, 0x20, 0x00] = .error .payloadBitSet := by decide
theorem test_decode_refuses_short_frame : decode .frame [0xA2, 0x05, 0x00] = .error .wrongLength := by
  decide
theorem test_decode_refuses_third_response_byte :
    decode .response [1, 2, 3] = .error .wrongLength := by decide
theorem test_decode_refuses_wide_command_word :
    decode .commandWord [0, 0, 0, 8] = .error .commandWordTooWide := by decide

/-! ### Small states -/

/-- The block in some phase of a command, the rest as at launch. -/
def at_ (phase : Phase) (op : Op) (tx : BitVec 3) (rx : BitVec 2) : State :=
  { State.reset with phase := phase, opQ := op, txIdx := tx, rxIdx := rx }

/-- The launch state with some answers ready at the link. -/
def answering (answers : List (Option Byte)) : State := { State.reset with rxrAnswers := answers }

/-- The launch state with one command offered and some answers ready. -/
def offering (cw : CmdWord) (answers : List (Option Byte)) : State :=
  { State.reset with cmdOffers := [cw], rxrAnswers := answers }

/-- The next state of an outcome. -/
def nextOf : Host.Outcome State Fault Refusal → Option State
  | .next s => some s
  | .fault _ => none
  | .refused _ => none

/-- The bytes written and the results delivered in the next state. -/
def streams (o : Host.Outcome State Fault Refusal) : Option (List Byte × List Result) :=
  (nextOf o).map fun s => (txStream s.trace, resultStream s.trace)

/-! ### One step of each instruction -/

/-- 95_test_vectors 2.3: `id` and `arg` on the port are ignored. -/
theorem test_exitSafeStart :
    streams (exec (.exitSafeStart 0xAB 0xCDEF) .reset) = some ([0x83], [⟨.none, 0, 0⟩]) := by decide
/-- 95_test_vectors 2.1, 1234. -/
theorem test_setMotorSpeed_forward :
    streams (exec (.setMotorSpeed 0 0x04D2) .reset)
      = some ([0x85, 0x12, 0x26], [⟨.none, 0, 0⟩]) := by decide
/-- 95_test_vectors 2.1, -32768. -/
theorem test_setMotorSpeed_most_negative :
    streams (exec (.setMotorSpeed 0 0x8000) .reset)
      = some ([0x86, 0x00, 0x00], [⟨.none, 0, 0⟩]) := by decide
/-- 95_test_vectors 2.2, `set_limit 0, 100`. -/
theorem test_setLimit :
    streams (exec (.setLimit 0 100) (answering [some 0x02]))
      = some ([0xA2, 0x00, 0x64, 0x00], [⟨.status, 0, 0x0002⟩]) := by decide
/-- 95_test_vectors 2.4, `None`. -/
theorem test_setLimit_absent :
    streams (exec (.setLimit 0 100) (answering [none]))
      = some ([0xA2, 0x00, 0x64, 0x00], [⟨.status, 0b01, 0x00FF⟩]) := by decide
/-- 95_test_vectors 2.3. -/
theorem test_detectBaudRate :
    streams (exec (.detectBaudRate 0xFF 0xFFFF) .reset) = some ([0xAA], [⟨.none, 0, 0⟩]) := by decide
/-- 95_test_vectors S4: 5 + 256 * 1 = 261. -/
theorem test_getVariable :
    streams (exec (.getVariable 20 0) (answering [some 0x05, some 0x01]))
      = some ([0xA1, 0x14], [⟨.variable, 0, 261⟩]) := by decide
/-- 95_test_vectors 2.6, `get_variable 24`. -/
theorem test_getVariable_second_absent :
    streams (exec (.getVariable 24 0) (answering [some 0x2C, none]))
      = some ([0xA1, 0x18], [⟨.variable, 0b10, 0xFF2C⟩]) := by decide
/-- 95_test_vectors P5. -/
theorem test_reservedOp5 :
    streams (exec (.reservedOp5 0x12 0x3456) .reset) = some ([], [⟨.illegal, 0, 0⟩]) := by decide
theorem test_reservedOp6 :
    streams (exec (.reservedOp6 0 0) .reset) = some ([], [⟨.illegal, 0, 0⟩]) := by decide
theorem test_reservedOp7 :
    streams (exec (.reservedOp7 0 0) .reset) = some ([], [⟨.illegal, 0, 0⟩]) := by decide
/-- 95_test_vectors 2.2. -/
theorem test_setForwardLimit :
    streams (exec (.setForwardLimit 1000) (answering [some 0]))
      = some ([0xA2, 0x05, 0x68, 0x07], [⟨.status, 0, 0⟩]) := by decide
theorem test_setReverseLimit :
    streams (exec (.setReverseLimit 5000) (answering [some 0]))
      = some ([0xA2, 0x09, 0x08, 0x07], [⟨.status, 0, 0⟩]) := by decide
theorem test_setDecelerationLimit :
    streams (exec (.setDecelerationLimit 4095) (answering [some 0]))
      = some ([0xA2, 0x02, 0x7F, 0x1F], [⟨.status, 0, 0⟩]) := by decide

theorem test_frameExitSafeStart :
    nextOf (exec .frameExitSafeStart (at_ .tx 0 0 0))
      = some { at_ .done 0 1 0 with trace := [.tx 0x83] } := by decide
theorem test_frameSetSpeedForward_rest :
    nextOf (exec (.frameSetSpeedForward 18 38) (at_ .tx 1 1 0))
      = some { at_ .done 1 3 0 with trace := [.tx 0x12, .tx 0x26] } := by decide
theorem test_frameSetSpeedReverse :
    nextOf (exec (.frameSetSpeedReverse 31 99) (at_ .tx 1 0 0))
      = some { at_ .done 1 3 0 with trace := [.tx 0x86, .tx 0x1F, .tx 0x63] } := by decide
theorem test_frameDetectBaudRate :
    nextOf (exec .frameDetectBaudRate (at_ .tx 3 0 0))
      = some { at_ .done 3 1 0 with trace := [.tx 0xAA] } := by decide
/-- A frame of a command with a response ends in RXQ (42_command_sequencer R128). -/
theorem test_frameSetLimit :
    nextOf (exec (.frameSetLimit 5 104 7) (at_ .tx 2 2 0))
      = some { at_ .rxq 2 4 0 with trace := [.tx 0x68, .tx 0x07] } := by decide
theorem test_frameGetVariable_stalls :
    nextOf (exec (.frameGetVariable 20) { at_ .tx 4 0 0 with txAllow := some 1 })
      = some { at_ .tx 4 1 0 with txAllow := some 0, trace := [.tx 0xA1] } := by decide

theorem test_responseStatus :
    nextOf (exec (.responseStatus 0x80) (at_ .rxr 2 4 0))
      = some { at_ .done 2 4 1 with rxB0 := 0x80, trace := [.readAnswer (some 0x80)] } := by decide
theorem test_responseVariable :
    nextOf (exec (.responseVariable 0x80 0xF3) { at_ .rxr 4 2 0 with rxTo := 0b11 })
      = some { at_ .done 4 2 2 with
          rxB0 := 0x80
          rxB1 := 0xF3
          trace := [.readAnswer (some 0x80), .readRequest, .readAnswer (some 0xF3)] } := by decide

/-! ### Steps -/

/-- 95_test_vectors 2.6: the whole trace of `set_limit 5, 1000`, in one step. -/
theorem test_step_set_limit_trace :
    (nextOf (step (offering 0x20503E8 [some 0x00]))).map State.trace
      = some [.cmd 0x20503E8, .tx 0xA2, .tx 0x05, .tx 0x68, .tx 0x07, .readRequest,
          .readAnswer (some 0x00), .result ⟨.status, 0, 0⟩] := by decide
/-- 42_command_sequencer R143: the answer comes late; the block waits in RXR. -/
theorem test_step_waits_for_an_answer :
    (nextOf (step (offering 0x4180000 [some 0x2C]))).map
        (fun s => (s.phase, s.rxIdx, s.rxB0)) = some (.rxr, 1, 0x2C) := by decide
/-- 70_reset_and_hazards R176: two bytes sent, then reset; no result. -/
theorem test_step_reset_in_a_frame :
    (nextOf (step { offering 0x10004D2 [] with rst := [false, false, false, true] })).map
        (fun s => (s.phase, s.trace))
      = some (.idle, [.cmd 0x10004D2, .tx 0x85, .tx 0x12, .reset]) := by decide
theorem test_step_waits_in_idle : nextOf (step .reset) = some .reset := by decide
/-- The word of a table row, placed, is what the next step runs. -/
theorem test_withFetchWord_runs_the_row :
    streams (step (State.reset.withFetchWord 32 0x10004D2))
      = some ([0x85, 0x12, 0x26], [⟨.none, 0, 0⟩]) := by decide
theorem test_withFetchWord_reverse_zero :
    streams (step (State.reset.withFetchWord 24 0x000086)) = some ([0x86, 0x00, 0x00], []) := by decide
/-- 95_test_vectors 2.4, 2.5: the record's word. -/
theorem test_resultWord : resultWord ⟨.variable, 0b10, 0xFF2C⟩ = 0xAFF2C := by decide

/-- 30_encoding R76: reading back; the one exception of sign. -/
theorem test_readFrame_signed :
    readFrame [0x86, 0x00, 0x64] = some (.setMotorSpeed (-3200))
      ∧ readFrame [0x85, 0x12, 0x26] = some (.setMotorSpeed 1234)
      ∧ readFrame [0x86, 0, 0] = some (.setMotorSpeed 0) ∧ readFrame [0x84] = none := by decide

/-! ### The launch premises (70_reset_and_hazards R189) -/

/-- A controller that autodetects, just powered up, on a quiet line of its own. -/
def freshLine : Surroundings := ⟨true, [], [], 0, 0⟩

/-- 95_test_vectors P1: `start()` is what meets P3. -/
theorem test_start_meets_P3 :
    freshLine.controllerStarted = false
      ∧ (freshLine.sees (commandsOf startSequence)).framesSeen = [[0xAA], [0x83]]
      ∧ (freshLine.sees (commandsOf startSequence)).controllerStarted = true
      ∧ (freshLine.sees (commandsOf startSequence.reverse)).controllerStarted = false := by decide
/-- Each premise can fail alone. -/
theorem test_launchPremises :
    let env := freshLine.sees (commandsOf startSequence)
    let s := offering 0x100F380 []
    launchPremises env s = true ∧ launchPremises freshLine s = false
      ∧ launchPremises { env with unread := [0x10] } s = false
      ∧ launchPremises { env with otherReaders := 1 } s = false
      ∧ launchPremises env (offering 0x100F37F []) = false
      ∧ launchPremises env { s with txAllow := some 2 } = false
      ∧ launchPremises env { s with rst := [false, true] } = false
      ∧ launchPremises env { s with rst := [true, false] } = true := by decide

/-! ### Hypotheses that hold somewhere: a case for each statement, at the ends of the ranges -/

theorem witness_DecodeOfEncode :
    (Instr.setLimit 255 0xFFFF).wellFormed = true ∧ (Instr.frameSetLimit 5 127 31).wellFormed = true := by
  decide
theorem witness_EncodeOfDecode :
    decode .frame [0xA2, 0xFF, 0x7F, 0x1F] = .ok (.frameSetLimit 255 127 31)
      ∧ decode .response [0xFF] = .ok (.responseStatus 255)
      ∧ decode .commandWord [0xFF, 0xFF, 0xFF, 0x07] = .ok (.reservedOp7 255 0xFFFF) := by decide
theorem witness_FrameReadsBack :
    ((-3200 : Int) ≤ -3200 ∧ (-3200 : Int) ≤ 3200 ∧ (3200 : Int) ≤ 3200 ∧ (4095 : Half).toNat ≤ 4095)
      ∧ decodeFrame (frameOf 1 0 (BitVec.ofInt 16 (-3200))) = .ok (.frameSetSpeedReverse 0 100)
      ∧ decodeFrame (frameOf 1 0 (BitVec.ofInt 16 0)) = .ok (.frameSetSpeedForward 0 0)
      ∧ decodeFrame (frameOf 2 2 4095) = .ok (.frameSetLimit 2 127 31) := by decide
theorem witness_FrameOfEveryCommand :
    5 ≤ (5 : Op).toNat ∧ 5 ≤ (7 : Op).toNat ∧ frameOf 5 0x12 0x3456 = [] := by decide
theorem witness_ReadFrameTable :
    (0x1F : Byte).toNat ≤ 0x1F ∧ (0x7F : Byte).toNat ≤ 0x7F
      ∧ readFrame [0x85, 0x1F, 0x7F] = some (.setMotorSpeed 4095)
      ∧ readFrame [0x86, 0x1F, 0x7F] = some (.setMotorSpeed (-4095))
      ∧ readFrame [0xA2, 0xFF, 0x7F, 0x1F] = some (.setLimit 0xFF 4095)
      ∧ readFrame [0xA1, 0xFF] = some (.getVariable 0xFF)
      ∧ readFrame [0x83] = some .exitSafeStart ∧ readFrame [0xAA] = some .detectBaudRate := by decide
/-- The ends of both domains, and of the range in which a frame says all of its operand. -/
theorem witness_ReadFrameInvertsTheEncoder :
    (4 : Op).toNat ≤ 4 ∧ inDomain 4 0xFFFF = true ∧ inDomain 1 0xF380 = true ∧ inDomain 1 0xF37F = false
      ∧ inDomain 2 4095 = true ∧ inDomain 2 4096 = false
      ∧ readFrame (frameOf 1 0 0xF380) = some (.setMotorSpeed (-3200))
      ∧ readFrame (frameOf 1 0 0xF001) = some (.setMotorSpeed (-4095))
      ∧ readFrame (frameOf 1 0 4096) = some (.setMotorSpeed 0) := by decide
theorem witness_EncoderRoundTrips :
    (3200 : Half).toNat ≤ 3200 ∧ (4095 : Half).toNat ≤ 4095 ∧ ((-3200 : Int) ≤ 3200)
      ∧ decodeMagnitude (low5 3200) (high7 3200) = 3200 ∧ decodeLimit (low7 4095) (high5 4095) = 4095 := by
  decide
/-- 95_test_vectors 2.1, 2.2: 4096 goes as 0, 5000 as 904. -/
theorem witness_OutOfDomainTruncation :
    frameOf 1 0 4096 = frameOf 1 1 0 ∧ frameOf 2 5 5000 = frameOf 2 5 904
      ∧ ((1 : Op) = 1 ∨ (1 : Op) = 2) ∧ ((2 : Op) = 1 ∨ (2 : Op) = 2) := by decide
theorem witness_FrameLengthByOpcode :
    decode .frame [0xAA] = .ok .frameDetectBaudRate
      ∧ decode .frame [0xA1, 0xFF] = .ok (.frameGetVariable 0xFF)
      ∧ decode .frame [0x86, 0x00, 0x00] = .ok (.frameSetSpeedReverse 0 0)
      ∧ decode .frame [0xA2, 0x00, 0x00, 0x00] = .ok (.frameSetLimit 0 0 0) := by decide
theorem witness_FlagsTellTheAnswers :
    ([] : List (Option Byte)).length = rxNeed 7 ∧ [(none : Option Byte)].length = rxNeed 2
      ∧ [some (0xFF : Byte), none].length = rxNeed 4
      ∧ (bigStep 0xFF 4 0 0 [some 0xFF, none]).result = ⟨.variable, 0b10, 0xFFFF⟩ := by decide
theorem witness_AbsenceIsOutOfBand :
    decodeStatus 0xFF none ≠ decodeStatus 0xFF (some 0xFF)
      ∧ decodeStatus 0 (some 7) = decodeStatus 0xFF (some 7)
      ∧ decodeVariable 0xFF (some 1) none = decodeVariable 0xFF (some 1) none := by decide
theorem witness_GoneWrongExactly :
    (bigStep 0xFF 5 0 0 []).result.goneWrong = true
      ∧ (bigStep 0xFF 4 0 0 [some 0, some 0]).result.goneWrong = false
      ∧ (bigStep 0xFF 2 0 0 [none]).result.goneWrong = true
      ∧ [(none : Option Byte)].length = rxNeed 2 := by decide

theorem witness_AcceptTransfer :
    (offering 0x20503E8 []).phase = .idle ∧ (offering 0x20503E8 []).cmdOffers = [0x20503E8]
      ∧ (offering 0x20503E8 []).rst.headD false = false
      ∧ (clockStep (offering 0x20503E8 [])).phase = .tx
      ∧ (clockStep (offering 0x5123456 [])).phase = .done := by decide
/-- The first byte of a frame and the last, with a link that takes one more byte. -/
theorem witness_SendTransfer :
    ∀ tx : BitVec 3, tx = 0 ∨ tx = 3 →
      let s := { at_ .tx 2 tx 0 with txAllow := some 1 }
      s.txReady = true ∧ (frameOf s.opQ s.idQ s.argQ)[s.txIdx.toNat]? ≠ none
        ∧ s.rst.headD false = false := by decide
theorem witness_RequestTransfer :
    let s := { at_ .rxq 4 2 1 with rxqAllow := some 1 }
    s.phase = .rxq ∧ s.rxqReady = true ∧ s.rst.headD false = false := by decide
theorem witness_ReceiveTransfer :
    ∀ rx : BitVec 2, rx = 0 ∨ rx = 1 →
      let s := { at_ .rxr 4 2 rx with rxrAnswers := [none] }
      s.phase = .rxr ∧ s.rxrAnswers = none :: [] ∧ s.rst.headD false = false ∧ s.rxIdx = rx := by decide
theorem witness_OfferedRecord :
    (at_ .done 3 1 0).opQ = 3 ∧ (at_ .done 2 4 1).opQ = 2 ∧ (at_ .done 4 2 2).opQ = 4
      ∧ 5 ≤ (at_ .done 5 0 0).opQ.toNat ∧ 5 ≤ (at_ .done 7 0 0).opQ.toNat := by decide
theorem witness_DeliverTransfer :
    let s := { at_ .done 2 4 1 with rspAllow := some 1 }
    s.phase = .done ∧ s.rspReady = true ∧ s.rst.headD false = false := by decide
theorem witness_OnlyAcceptWritesTheLatches :
    let s := { at_ .tx 2 0 0 with cmdOffers := [0x1000000] }
    s.phase ≠ .idle ∧ s.rst.headD false = false ∧ (clockStep s).txIdx = 1 := by decide

/-- An idle block with exactly what its command needs, a reset coming right after. -/
def exactly (n tx rxq : Nat) (answers : List (Option Byte)) : State :=
  { answering answers with
    rst := List.replicate n false ++ [true], txAllow := some tx, rxqAllow := some rxq
    rspAllow := some 1 }

theorem witness_ExitSafeStartCompletes : (exactly 3 1 0 []).readyFor 3 1 0 = true := by decide
theorem witness_SetMotorSpeedCompletes : (exactly 5 3 0 []).readyFor 5 3 0 = true := by decide
theorem witness_SetLimitCompletes :
    (exactly 8 4 1 [none]).readyFor 8 4 1 = true ∧ (exactly 8 4 1 [none]).rxrAnswers = none :: [] := by
  decide
theorem witness_DetectBaudRateCompletes : (exactly 3 1 0 []).readyFor 3 1 0 = true := by decide
theorem witness_GetVariableCompletes :
    (exactly 8 2 2 [none, some 0]).readyFor 8 2 2 = true
      ∧ (exactly 8 2 2 [none, some 0]).rxrAnswers = none :: some 0 :: [] := by decide
theorem witness_ReservedSelectorsComplete :
    (exactly 2 0 0 []).readyFor 2 0 0 = true
      ∧ nextOf (exec (.reservedOp7 1 2) (exactly 2 0 0 [])) ≠ none := by decide
theorem witness_PseudoCommandsComplete :
    (exactly 8 4 1 [some 0]).readyFor 8 4 1 = true
      ∧ (exactly 8 4 1 [some 0]).rxrAnswers = some 0 :: [] := by decide
theorem witness_CommandsWaitWhileBusy :
    (commandFields (.setReverseLimit 0)).isSome = true ∧ (at_ .done 0 1 0).phase ≠ .idle := by decide

/-- Each frame row with its whole frame to send, and the longest with its last byte to send. -/
theorem witness_FramesComplete :
    (∀ p ∈ [(0, 1), (1, 3), (3, 1), (2, 4), (4, 2)],
      let s := { at_ .tx (BitVec.ofNat 3 p.1) 0 0 with txAllow := some p.2 }
      s.phase = .tx ∧ s.txIdx.toNat < p.2 ∧ s.quiet p.2 = true ∧ atLeast p.2 s.txAllow = true)
      ∧ (at_ .tx 2 3 0).txIdx.toNat < [0xA2, (5 : Byte), 0x68, 0x07].length := by decide
theorem witness_StatusResponseCompletes :
    let s := { at_ .rxq 2 4 0 with rxqAllow := some 1, rst := [false, false, true] }
    s.opQ = 2 ∧ s.rxIdx = 0 ∧ s.quiet 2 = true ∧ s.rxqReady = true ∧ s.phase = .rxq
      ∧ (at_ .rxr 2 4 0).phase = .rxr ∧ (at_ .rxr 2 4 0).quiet 1 = true := by decide
theorem witness_VariableResponseCompletes :
    let s := { at_ .rxq 4 2 0 with rxqAllow := some 2 }
    let t := { at_ .rxr 4 2 0 with rxqAllow := some 1 }
    s.opQ = 4 ∧ s.rxIdx = 0 ∧ s.quiet 4 = true ∧ atLeast 2 s.rxqAllow = true ∧ s.phase = .rxq
      ∧ t.opQ = 4 ∧ t.rxIdx = 0 ∧ t.quiet 3 = true ∧ atLeast 1 t.rxqAllow = true
      ∧ t.phase = .rxr := by decide
theorem witness_WireRowsWaitOutsideTheirPhase :
    (encode .frameDetectBaudRate).1 = .frame ∧ (at_ .rxq 2 4 0).phase ≠ .tx
      ∧ (encode (.responseStatus 0)).1 = .response ∧ (at_ .tx 2 0 0).phase ≠ .rxq
      ∧ (at_ .tx 2 0 0).phase ≠ .rxr := by decide

theorem witness_StepRunsTheDecodedInstruction :
    (offering 0x7FFFFFF []).cmdOffers = 0x7FFFFFF :: []
      ∧ decode .commandWord (bytesOfWord 4 (0x7FFFFFF : CmdWord).toNat) = .ok (.reservedOp7 0xFF 0xFFFF)
      ∧ decode .frame (frameOf (at_ .tx 4 1 0).opQ 0 0) = .ok (.frameGetVariable 0)
      ∧ [(5 : Byte), 1].length = rxNeed (at_ .rxq 4 2 0).opQ
      ∧ decode .response [5, 1] = .ok (.responseVariable 5 1)
      ∧ [(5 : Byte)].length = rxNeed (at_ .rxr 2 4 0).opQ
      ∧ decode .response [5] = .ok (.responseStatus 5) := by decide
theorem witness_PlacedInstructionRuns :
    (Instr.frameSetSpeedReverse 0 0).wellFormed = true
      ∧ fetch (placeInstr (.frameSetSpeedReverse 0 0) .reset) = .instr (.frameSetSpeedReverse 0 0) := by
  decide
theorem witness_FetchedFrameIsTheLatchedCommands :
    (at_ .tx 4 1 0).phase = .tx ∧ (at_ .tx 4 1 0).opQ.toNat ≤ 4
      ∧ fetch (at_ .tx 4 1 0) = .instr (.frameGetVariable 0) := by decide
theorem witness_StepFaultsOnlyWithoutAFrame :
    step (at_ .tx 5 0 0) = .fault .noFrame ∧ (at_ .tx 4 1 0).sequenceInv = true := ⟨rfl, by decide⟩
theorem witness_StalledBlockWaits :
    (State.reset.sequenceInv = true ∧ State.reset.phase = .idle ∧ State.reset.cmdOffers = [])
      ∧ ({ at_ .tx 2 3 0 with txAllow := some 0 } : State).sequenceInv = true
      ∧ ({ at_ .tx 2 3 0 with txAllow := some 0 } : State).txReady = false
      ∧ ({ at_ .rxq 4 2 1 with rxqAllow := some 0 } : State).sequenceInv = true
      ∧ ({ at_ .rxq 4 2 1 with rxqAllow := some 0 } : State).rxqReady = false
      ∧ (at_ .rxr 2 4 0).sequenceInv = true ∧ (at_ .rxr 2 4 0).rxrAnswers = []
      ∧ ({ at_ .done 7 0 0 with rspAllow := some 0 } : State).sequenceInv = true
      ∧ ({ at_ .done 7 0 0 with rspAllow := some 0 } : State).rspReady = false := by decide
theorem witness_BusyStepTakesNoCommand :
    let s := { at_ .tx 2 0 0 with cmdOffers := [0x1000000] }
    s.phase ≠ .idle ∧ (nextOf (step s)).map State.cmdOffers = some [0x1000000] := by decide
/-- The middle of each phase, with just enough answers. -/
theorem witness_HeldUpCommandCompletes :
    ∀ s ∈ [{ at_ .tx 4 0 0 with rxrAnswers := [none, some 1] },
        { at_ .rxq 4 2 1 with rxrAnswers := [none] }, { at_ .rxr 2 4 0 with rxrAnswers := [some 1] },
        at_ .done 6 0 0],
      s.sequenceInv = true ∧ s.phase ≠ .idle ∧ s.rst = [] ∧ s.txAllow = none ∧ s.rxqAllow = none
        ∧ s.rspAllow = none ∧ rxNeed s.opQ ≤ s.rxIdx.toNat + s.rxrAnswers.length := by decide

theorem witness_ResetFromAnyPhase :
    ∀ s ∈ [State.reset, at_ .tx 2 3 0, at_ .rxq 4 2 1, at_ .rxr 2 4 0, at_ .done 5 0 0],
      s.sequenceInv = true ∧ ({ s with rst := [true] } : State).sequenceInv = true := by decide
/-- Before the first byte and before the last, with a link that takes no byte more. -/
theorem witness_ResetAbandonsTheFrame :
    ∀ n ∈ [0, 3],
      let s := { offering 0x20503E8 [] with
        txAllow := some n, rst := List.replicate (n + 1) false ++ [true] }
      s.phase = .idle ∧ s.cmdOffers = [0x20503E8] ∧ (cmdOp 0x20503E8).toNat ≤ 4
        ∧ n < txLen (cmdOp 0x20503E8) ∧ atLeast n s.txAllow = true := by decide

theorem witness_SequenceInvariantKept :
    (at_ .rxq 4 2 1).sequenceInv = true
      ∧ nextOf (step { at_ .rxq 4 2 1 with rxrAnswers := [none] }) ≠ none := by decide
theorem witness_AbsenceInvariantKept :
    let s := { at_ .rxq 4 2 1 with rxB0 := Config.sentinelByte, rxTo := 1, rxrAnswers := [none] }
    s.absenceInv = true ∧ nextOf (step s) ≠ none := by decide
theorem witness_DeliveredResultsAreLegal :
    let s := { at_ .done 4 2 2 with trace := [.result ⟨.status, 1, 0xFF⟩] }
    (∀ r ∈ resultStream s.trace, r.legal = true) ∧ nextOf (step s) ≠ none := by decide
theorem witness_TraceOnlyGrows : nextOf (step (offering 0x0000000 [])) ≠ none := by decide
theorem witness_StepIsARunOfTransfers :
    (at_ .tx 2 3 0).sequenceInv = true
      ∧ nextOf (step (at_ .tx 2 3 0)) = some (times 1 clockStep (at_ .tx 2 3 0)) := by decide
theorem witness_StepAgreesWithBigStep :
    let s := { exactly 8 2 2 [none, some 0] with cmdOffers := [0x4180000] }
    s.readyFor (txLen (cmdOp 0x4180000) + 2 * rxNeed (cmdOp 0x4180000) + 2) (txLen (cmdOp 0x4180000))
        (rxNeed (cmdOp 0x4180000)) = true
      ∧ s.cmdOffers = [0x4180000] ∧ rxNeed (cmdOp 0x4180000) ≤ s.rxrAnswers.length := by decide
theorem witness_NothingSurvivesACommand :
    (offering 0x5000000 []).phase = .idle ∧ nextOf (step (offering 0x5000000 [])) ≠ none := by decide
theorem witness_IgnoredFieldsHaveNoEffect :
    streams (exec (.getVariable 20 0x1234) (answering [some 1, none]))
      = streams (exec (.getVariable 20 0) (answering [some 1, none])) := by decide
/-- Two commands, one with reads, and just enough answers. -/
theorem witness_RunOfCommands :
    let s := { State.reset with cmdOffers := [0x20503E8, 0x0000000], rxrAnswers := [some 0] }
    s.phase = .idle ∧ s.rst = [] ∧ s.txAllow = none ∧ s.rxqAllow = none ∧ s.rspAllow = none
      ∧ expectedReads s.cmdOffers ≤ s.rxrAnswers.length := by decide
/-- A reset before the command and one after it, and just enough of everything. -/
theorem witness_LaunchPremisesSuffice :
    let s := { exactly 9 4 1 [none] with
      cmdOffers := [0x2050FFF], rst := true :: List.replicate 8 false ++ [true] }
    s.idleAtLaunch = true ∧ s.noResetInCommand = true ∧ s.operandsInDomain = true
      ∧ s.linkServes = true ∧ s.hostTakesResults = true
      ∧ (cmdOp 0x2050FFF).toNat ≤ 4 := by decide

end Sys2Proof.Tests
end

section
/-! PROOFS. What the decoder and the encoder say of each other, space by space (30_encoding R61 to
R76), and the meaning of a row read off its encoding. -/

namespace Sys2Proof

/-! ### Payload fields: a byte that fits a field is the field, widened -/

theorem fitsIn_iff (width : Nat) (b : Byte) : fitsIn width b = true ↔ b.toNat < 2 ^ width := by
  rw [fitsIn, beq_iff_eq, ← BitVec.toNat_inj, BitVec.toNat_ushiftRight, Nat.shiftRight_eq_div_pow]
  simp [Nat.div_eq_zero_iff]

theorem fitsIn_setWidth {width : Nat} (x : BitVec width) (h : width ≤ 8) :
    fitsIn width (x.setWidth 8) = true := by
  rw [fitsIn_iff, BitVec.toNat_setWidth_of_le h]
  exact x.isLt

theorem setWidth_setWidth_of_fitsIn {width : Nat} {b : Byte} (h : fitsIn width b = true) :
    (b.setWidth width).setWidth 8 = b := by
  apply BitVec.eq_of_toNat_eq
  rw [BitVec.toNat_setWidth, BitVec.toNat_setWidth, Nat.mod_eq_of_lt ((fitsIn_iff width b).mp h),
    Nat.mod_eq_of_lt b.isLt]

theorem decodeNoPayload_ok_iff {i j : Instr} {payload : List Byte} :
    decodeNoPayload i payload = .ok j ↔ payload = [] ∧ i = j := by
  cases payload <;> simp [decodeNoPayload]

theorem decodeSpeedPayload_ok_iff {ctor : BitVec 5 → BitVec 7 → Instr} {payload : List Byte}
    {j : Instr} :
    decodeSpeedPayload ctor payload = .ok j
      ↔ ∃ a b, payload = [a.setWidth 8, b.setWidth 8] ∧ ctor a b = j := by
  constructor
  · unfold decodeSpeedPayload
    intro h
    split at h
    · next a b =>
      split at h
      · next hfit =>
        rw [Bool.and_eq_true] at hfit
        exact ⟨a.setWidth 5, b.setWidth 7, by
          rw [setWidth_setWidth_of_fitsIn hfit.1, setWidth_setWidth_of_fitsIn hfit.2],
          Except.ok.inj h⟩
      · cases h
    · cases h
  · rintro ⟨a, b, rfl, rfl⟩
    simp [decodeSpeedPayload, fitsIn_setWidth]

theorem decodeLimitPayload_ok_iff {payload : List Byte} {j : Instr} :
    decodeLimitPayload payload = .ok j
      ↔ ∃ i a b, payload = [i, a.setWidth 8, b.setWidth 8] ∧ .frameSetLimit i a b = j := by
  constructor
  · unfold decodeLimitPayload
    intro h
    split at h
    · next i a b =>
      split at h
      · next hfit =>
        rw [Bool.and_eq_true] at hfit
        exact ⟨i, a.setWidth 7, b.setWidth 5, by
          rw [setWidth_setWidth_of_fitsIn hfit.1, setWidth_setWidth_of_fitsIn hfit.2],
          Except.ok.inj h⟩
      · cases h
    · cases h
  · rintro ⟨i, a, b, rfl, rfl⟩
    simp [decodeLimitPayload, fitsIn_setWidth]

theorem decodeVariablePayload_ok_iff {payload : List Byte} {j : Instr} :
    decodeVariablePayload payload = .ok j ↔ ∃ v, payload = [v] ∧ .frameGetVariable v = j := by
  unfold decodeVariablePayload
  split <;> simp_all

/-! ### Frames and responses: decoding and encoding are inverse -/

/-- Bytes decode to a frame row exactly when they are its encoding (30_encoding R63, R76). -/
theorem decodeFrame_ok_iff {f : List Byte} {i : Instr} :
    decodeFrame f = .ok i ↔ encode i = (.frame, f) := by
  constructor
  · intro h
    cases f with
    | nil => cases h
    | cons opcode payload =>
      simp only [decodeFrame] at h
      split_ifs at h with h83 h85 h86 hAA hA2 hA1
      · obtain ⟨rfl, rfl⟩ := decodeNoPayload_ok_iff.mp h
        rw [h83]; rfl
      · obtain ⟨a, b, rfl, rfl⟩ := decodeSpeedPayload_ok_iff.mp h
        rw [h85]; rfl
      · obtain ⟨a, b, rfl, rfl⟩ := decodeSpeedPayload_ok_iff.mp h
        rw [h86]; rfl
      · obtain ⟨rfl, rfl⟩ := decodeNoPayload_ok_iff.mp h
        rw [hAA]; rfl
      · obtain ⟨l, a, b, rfl, rfl⟩ := decodeLimitPayload_ok_iff.mp h
        rw [hA2]; rfl
      · obtain ⟨v, rfl, rfl⟩ := decodeVariablePayload_ok_iff.mp h
        rw [hA1]; rfl
  · intro h
    cases i <;> cases h
    case frameSetSpeedForward.refl a b => exact decodeSpeedPayload_ok_iff.mpr ⟨a, b, rfl, rfl⟩
    case frameSetSpeedReverse.refl a b => exact decodeSpeedPayload_ok_iff.mpr ⟨a, b, rfl, rfl⟩
    case frameSetLimit.refl l a b => exact decodeLimitPayload_ok_iff.mpr ⟨l, a, b, rfl, rfl⟩
    all_goals rfl

/-- Bytes decode to a response row exactly when they are its encoding (30_encoding R70). -/
theorem decodeResponse_ok_iff {bytes : List Byte} {i : Instr} :
    decodeResponse bytes = .ok i ↔ encode i = (.response, bytes) := by
  constructor
  · unfold decodeResponse
    intro h
    split at h <;> cases h <;> rfl
  · intro h
    cases i <;> cases h <;> rfl

/-! ### Command words -/

/-- Where each bit of a command word comes from (30_encoding R61). -/
theorem getLsbD_cmdWord (op : Op) (id : Byte) (arg : Half) (k : Nat) :
    (cmdWord op id arg).getLsbD k
      = if k < 16 then arg.getLsbD k
        else if k - 16 < 8 then id.getLsbD (k - 16) else op.getLsbD (k - 16 - 8) := by
  simp only [cmdWord, BitVec.getLsbD_append]

@[simp] theorem cmdOp_cmdWord (op : Op) (id : Byte) (arg : Half) :
    cmdOp (cmdWord op id arg) = op := by
  apply BitVec.eq_of_getLsbD_eq
  intro k hk
  rw [cmdOp, BitVec.getLsbD_extractLsb', getLsbD_cmdWord, if_neg (by omega), if_neg (by omega),
    show 24 + k - 16 - 8 = k by omega]
  simp [hk]

@[simp] theorem cmdId_cmdWord (op : Op) (id : Byte) (arg : Half) :
    cmdId (cmdWord op id arg) = id := by
  apply BitVec.eq_of_getLsbD_eq
  intro k hk
  rw [cmdId, BitVec.getLsbD_extractLsb', getLsbD_cmdWord, if_neg (by omega), if_pos (by omega),
    show 16 + k - 16 = k by omega]
  simp [hk]

@[simp] theorem cmdArg_cmdWord (op : Op) (id : Byte) (arg : Half) :
    cmdArg (cmdWord op id arg) = arg := by
  apply BitVec.eq_of_getLsbD_eq
  intro k hk
  rw [cmdArg, BitVec.getLsbD_extractLsb', getLsbD_cmdWord, if_pos (by omega), Nat.zero_add]
  simp [hk]

@[simp] theorem cmdWord_fields (cw : CmdWord) : cmdWord (cmdOp cw) (cmdId cw) (cmdArg cw) = cw := by
  apply BitVec.eq_of_getLsbD_eq
  intro k hk
  rw [getLsbD_cmdWord, cmdOp, cmdId, cmdArg]
  simp only [BitVec.getLsbD_extractLsb']
  split_ifs with h16 h8
  · simp [h16]
  · simp [h8, show 16 + (k - 16) = k by omega]
  · simp [show 24 + (k - 16 - 8) = k by omega, show k - 16 - 8 < 3 by omega]

/-- The bytes of a word, low byte first, hold what fits in them (30_encoding R75). -/
theorem wordOfBytes_bytesOfWord (n w : Nat) : wordOfBytes (bytesOfWord n w) = w % 256 ^ n := by
  induction n generalizing w with
  | zero => simp [bytesOfWord, wordOfBytes, Nat.mod_one]
  | succ n ih =>
    rw [bytesOfWord, wordOfBytes, ih, BitVec.toNat_ofNat, show (2 ^ 8 : Nat) = 256 from rfl,
      Nat.pow_succ', Nat.mod_mul]

theorem bytesOfWord_length (n w : Nat) : (bytesOfWord n w).length = n := by
  induction n generalizing w with
  | zero => rfl
  | succ n ih => rw [bytesOfWord, List.length_cons, ih]

/-- The four bytes of a command word decode to the command that the word names (log 14). -/
theorem decodeCommandBytes_bytesOfWord (cw : CmdWord) :
    decodeCommandBytes (bytesOfWord 4 cw.toNat) = .ok (decodeCommand cw) := by
  have hlen : (bytesOfWord 4 cw.toNat).length = 4 := bytesOfWord_length 4 _
  have hword : wordOfBytes (bytesOfWord 4 cw.toNat) = cw.toNat := by
    rw [wordOfBytes_bytesOfWord]
    have := cw.isLt
    omega
  have hne : (bytesOfWord 4 cw.toNat).isEmpty = false := by
    rw [bytesOfWord, List.isEmpty_cons]
  simp [decodeCommandBytes, hlen, hword, hne, cw.isLt]

theorem commandFields_decodeSetLimit (id : Byte) (value : Half) :
    commandFields (decodeSetLimit id value) = some (2, id, value) := by
  unfold decodeSetLimit
  split_ifs <;> simp_all [commandFields]

/-- The command a word names has the word's selector and fields (30_encoding R61, R62). -/
theorem commandFields_decodeCommand (cw : CmdWord) :
    commandFields (decodeCommand cw) = some (cmdOp cw, cmdId cw, cmdArg cw) := by
  unfold decodeCommand
  generalize cmdOp cw = op
  match op with
  | 0#3 | 1#3 | 3#3 | 4#3 | 5#3 | 6#3 | 7#3 => rfl
  | 2#3 => exact commandFields_decodeSetLimit _ _

theorem decodeSetLimit_of_wellFormed {id : Byte} {value : Half}
    (h : (Instr.setLimit id value).wellFormed = true) :
    decodeSetLimit id value = .setLimit id value := by
  simp only [Instr.wellFormed, isPseudoLimitId, Bool.not_eq_true', Bool.or_eq_false_iff,
    beq_eq_false_iff_ne] at h
  obtain ⟨⟨hf, hr⟩, hd⟩ := h
  simp [decodeSetLimit, hf, hr, hd]

/-- A well-formed command row is what its own word names (30_encoding R74; log 8). -/
theorem decodeCommand_cmdWord {i : Instr} {op : Op} {id : Byte} {arg : Half}
    (hw : i.wellFormed = true) (hf : commandFields i = some (op, id, arg)) :
    decodeCommand (cmdWord op id arg) = i := by
  unfold decodeCommand
  rw [cmdOp_cmdWord, cmdId_cmdWord, cmdArg_cmdWord]
  cases i <;> cases hf
  case setLimit.refl => exact decodeSetLimit_of_wellFormed hw
  all_goals rfl

/-- A row that is neither a frame nor a response has a selector and fields. -/
theorem encode_space_cases (i : Instr) :
    (∃ f, encode i = (.frame, f)) ∨ (∃ bytes, encode i = (.response, bytes))
      ∨ ∃ op id arg, commandFields i = some (op, id, arg) := by
  cases i <;> simp [encode, commandFields]

end Sys2Proof
end

section
/-! PROOFS. What a row means, read off its encoding, and what a step is in each phase. -/

namespace Sys2Proof.Machine

variable {s : State}

/-! ### The encoder's fields as narrowed words (40_command_encoder R90, R101) -/

theorem low5_eq_setWidth (m : Half) : low5 m = (m.setWidth 5).setWidth 8 := by
  apply BitVec.eq_of_toNat_eq
  simp only [low5, BitVec.toNat_setWidth, BitVec.toNat_and]
  rw [show (0x1F : Half).toNat = 2 ^ 5 - 1 from rfl, Nat.and_two_pow_sub_one_eq_mod]

theorem high7_eq_setWidth (m : Half) : high7 m = ((m >>> 5).setWidth 7).setWidth 8 := by
  apply BitVec.eq_of_toNat_eq
  simp only [high7, BitVec.toNat_setWidth, BitVec.toNat_and]
  rw [show (0x7F : Half).toNat = 2 ^ 7 - 1 from rfl, Nat.and_two_pow_sub_one_eq_mod]

theorem low7_eq_setWidth (v : Half) : low7 v = (v.setWidth 7).setWidth 8 := by
  apply BitVec.eq_of_toNat_eq
  simp only [low7, BitVec.toNat_setWidth, BitVec.toNat_and]
  rw [show (0x7F : Half).toNat = 2 ^ 7 - 1 from rfl, Nat.and_two_pow_sub_one_eq_mod]

theorem high5_eq_setWidth (v : Half) : high5 v = ((v >>> 7).setWidth 5).setWidth 8 := by
  apply BitVec.eq_of_toNat_eq
  simp only [high5, BitVec.toNat_setWidth, BitVec.toNat_and]
  rw [show (0x1F : Half).toNat = 2 ^ 5 - 1 from rfl, Nat.and_two_pow_sub_one_eq_mod]

theorem op_cases_of_le_four {op : Op} (h : op.toNat ≤ 4) :
    op = 0#3 ∨ op = 1#3 ∨ op = 2#3 ∨ op = 3#3 ∨ op = 4#3 := by
  revert h; revert op; decide

theorem op_cases_of_five_le {op : Op} (h : 5 ≤ op.toNat) : op = 5#3 ∨ op = 6#3 ∨ op = 7#3 := by
  revert h; revert op; decide

/-- Every command with a frame has the bytes of a frame row (30_encoding R63, R72). -/
theorem exists_encode_eq_frameOf {op : Op} (h : op.toNat ≤ 4) (id : Byte) (arg : Half) :
    ∃ i, encode i = (.frame, frameOf op id arg) := by
  rcases op_cases_of_le_four h with rfl | rfl | rfl | rfl | rfl
  · exact ⟨.frameExitSafeStart, rfl⟩
  · simp only [frameOf_motorSpeed, low5_eq_setWidth, high7_eq_setWidth, speedOpcode]
    cases arg.msb with
    | true => exact ⟨.frameSetSpeedReverse _ _, rfl⟩
    | false => exact ⟨.frameSetSpeedForward _ _, rfl⟩
  · simp only [frameOf_limit, low7_eq_setWidth, high5_eq_setWidth]
    exact ⟨.frameSetLimit _ _ _, rfl⟩
  · exact ⟨.frameDetectBaudRate, rfl⟩
  · exact ⟨.frameGetVariable _, rfl⟩

theorem frameOf_of_reserved {op : Op} (h : 5 ≤ op.toNat) (id : Byte) (arg : Half) :
    frameOf op id arg = [] := by
  rcases op_cases_of_five_le h with rfl | rfl | rfl <;> rfl

/-! ### The meaning of a row, by the space of its encoding -/

/-- The reads that a response row answers with its bytes, in order (41_response_decoder R111,
R112). -/
def readBytes : List Byte → State → State
  | [], s => s
  | b :: bs, s => readBytes bs (readWith (some b) s)

@[simp] theorem readBytes_nil (s : State) : readBytes [] s = s := rfl
@[simp] theorem readBytes_cons (b : Byte) (bs : List Byte) (s : State) :
    readBytes (b :: bs) s = readBytes bs (readWith (some b) s) := rfl

theorem readBytes_of_not_reading (hq : s.phase ≠ .rxq) (hr : s.phase ≠ .rxr) :
    ∀ bytes, readBytes bytes s = s
  | [] => rfl
  | b :: bs => by
    rw [readBytes_cons, readWith_of_not_reading _ hq hr, readBytes_of_not_reading hq hr bs]

/-- A frame row sends its own bytes (42_command_sequencer R128). -/
theorem exec_of_encode_frame {i : Instr} {f : List Byte} (h : encode i = (.frame, f)) (s : State) :
    exec i s = .next (sendFrame f s) := by
  cases i <;> cases h <;> rfl

/-- A response row answers reads with its own bytes (42_command_sequencer R129, R130). -/
theorem exec_of_encode_response {i : Instr} {bytes : List Byte} (h : encode i = (.response, bytes))
    (s : State) : exec i s = .next (readBytes bytes s) := by
  cases i <;> cases h <;> rfl

/-- A command row is the whole operation of its selector and fields (42_command_sequencer R132). -/
theorem exec_of_commandFields {i : Instr} {op : Op} {id : Byte} {arg : Half}
    (h : commandFields i = some (op, id, arg)) (s : State) :
    exec i s = .next (runCommand op id arg s) := by
  cases i <;> cases h <;> rfl

/-! ### What the step fetches -/

theorem fetch_of_idle_offer (hp : s.phase = .idle) {cw : CmdWord} {rest : List CmdWord}
    (hc : s.cmdOffers = cw :: rest) : fetch s = .instr (decodeCommand cw) := by
  simp [fetch, hp, State.cmdOffered, hc]

theorem fetch_of_idle_nothing_offered (hp : s.phase = .idle) (hc : s.cmdOffers = []) :
    fetch s = .noCommand := by
  simp [fetch, hp, State.cmdOffered, hc]

theorem fetch_of_tx (hp : s.phase = .tx) {i : Instr} (hi : encode i = (.frame, s.currentFrame)) :
    fetch s = .instr i := by
  simp [fetch, hp, decodeFrame_ok_iff.mpr hi]

theorem fetch_of_reserved_tx (hp : s.phase = .tx) (hop : 5 ≤ s.opQ.toNat) : fetch s = .nothing := by
  simp [fetch, hp, State.currentFrame, frameOf_of_reserved hop, decodeFrame]

theorem fetch_of_reading (hp : s.phase = .rxq ∨ s.phase = .rxr) : fetch s = fetchResponse s := by
  rcases hp with hp | hp <;> simp [fetch, hp]

theorem fetch_of_done (hp : s.phase = .done) : fetch s = .delivery := by simp [fetch, hp]

/-- What is fetched of a response is a response row, or reads (42_command_sequencer R129, R130). -/
theorem fetchResponse_cases (s : State) :
    (∃ i b bs, encode i = (.response, b :: bs) ∧ fetchResponse s = .instr i)
      ∨ fetchResponse s = .reads := by
  unfold fetchResponse
  split
  · split
    · next bytes _ =>
      cases hd : decodeResponse bytes with
      | error _ => exact .inr rfl
      | ok i =>
        cases bytes with
        | nil => cases hd
        | cons b bs => exact .inl ⟨i, b, bs, decodeResponse_ok_iff.mp hd, rfl⟩
    · exact .inr rfl
  · exact .inr rfl

theorem wholeResponse_of_ready {op : Op} {bytes : List Byte} (hne : bytes ≠ [])
    (hlen : bytes.length = rxNeed op) (rest : List (Option Byte)) :
    wholeResponse (responseClass op) (bytes.map some ++ rest) = some bytes := by
  unfold rxNeed at hlen
  match hcls : responseClass op with
  | .none =>
    rw [hcls] at hlen
    exact absurd (List.length_eq_zero_iff.mp hlen) hne
  | .status =>
    rw [hcls] at hlen
    obtain ⟨b, rfl⟩ := List.length_eq_one_iff.mp hlen
    rfl
  | .variable =>
    rw [hcls] at hlen
    obtain ⟨b0, b1, rfl⟩ := List.length_eq_two.mp hlen
    rfl
  | .illegal =>
    rw [hcls] at hlen
    exact absurd (List.length_eq_zero_iff.mp hlen) hne

/-- A whole response that is ready from its first byte on is fetched as its row. -/
theorem fetchResponse_of_ready (hx : s.rxIdx = 0) {i : Instr} {bytes : List Byte}
    {rest : List (Option Byte)} (hlen : bytes.length = rxNeed s.opQ)
    (ha : s.rxrAnswers = bytes.map some ++ rest) (hi : encode i = (.response, bytes)) :
    fetchResponse s = .instr i := by
  have hdec := decodeResponse_ok_iff.mpr hi
  have hne : bytes ≠ [] := by
    rintro rfl
    cases hdec
  simp only [fetchResponse, hx, if_true, ha, wholeResponse_of_ready hne hlen rest, hdec]

/-! ### The step in each phase -/

theorem step_of_fetch_instr {i : Instr} (h : fetch s = .instr i) : step s = exec i s := by
  simp [step, h]

/-- In IDLE with a command offered the step is that command's whole operation. -/
theorem step_of_idle_offer (hp : s.phase = .idle) {cw : CmdWord} {rest : List CmdWord}
    (hc : s.cmdOffers = cw :: rest) :
    step s = .next (runCommand (cmdOp cw) (cmdId cw) (cmdArg cw) s) := by
  rw [step_of_fetch_instr (fetch_of_idle_offer hp hc),
    exec_of_commandFields (commandFields_decodeCommand cw)]

theorem step_of_idle_nothing_offered (hp : s.phase = .idle) (hc : s.cmdOffers = []) :
    step s = .next (opportunity id s) := by
  simp [step, fetch_of_idle_nothing_offered hp hc]

/-- In TX the step sends what is left of the latched command's frame. -/
theorem step_of_tx (hp : s.phase = .tx) (hop : s.opQ.toNat ≤ 4) :
    step s = .next (sendFrame s.currentFrame s) := by
  obtain ⟨i, hi⟩ := exists_encode_eq_frameOf hop s.idQ s.argQ
  rw [step_of_fetch_instr (fetch_of_tx hp hi), exec_of_encode_frame hi, State.currentFrame]

theorem step_of_reserved_tx (hp : s.phase = .tx) (hop : 5 ≤ s.opQ.toNat) :
    step s = .fault .noFrame := by
  simp [step, fetch_of_reserved_tx hp hop]

/-- In RXQ and RXR the step reads: a whole response that is ready, or what the link answers. -/
theorem step_of_reading (hp : s.phase = .rxq ∨ s.phase = .rxr) :
    (∃ b bs, step s = .next (readBytes (b :: bs) s)) ∨ step s = .next (readResponse s) := by
  rcases fetchResponse_cases s with ⟨i, b, bs, hi, h⟩ | h
  · exact .inl ⟨b, bs, by
      rw [step_of_fetch_instr ((fetch_of_reading hp).trans h), exec_of_encode_response hi]⟩
  · exact .inr (by simp [step, (fetch_of_reading hp).trans h])

theorem step_of_done (hp : s.phase = .done) : step s = .next (deliverResult s) := by
  simp [step, fetch_of_done hp]

/-! ### The invariants of 10_state R30 in each phase -/

theorem sequenceInv_of_idle (hp : s.phase = .idle) : s.sequenceInv = true := by
  simp [State.sequenceInv, hp]

theorem sequenceInv_tx_iff (hp : s.phase = .tx) :
    s.sequenceInv = true
      ↔ s.opQ.toNat ≤ 4 ∧ s.txIdx.toNat < txLen s.opQ ∧ s.rxIdx = 0 ∧ s.rxTo = 0 := by
  simp [State.sequenceInv, hp, and_assoc]

theorem sequenceInv_reading_iff (hp : s.phase = .rxq ∨ s.phase = .rxr) :
    s.sequenceInv = true
      ↔ (s.opQ = 2#3 ∨ s.opQ = 4#3) ∧ s.txIdx.toNat = txLen s.opQ
        ∧ s.rxIdx.toNat < rxNeed s.opQ := by
  rcases hp with hp | hp <;> simp [State.sequenceInv, hp, and_assoc]

theorem sequenceInv_done_iff (hp : s.phase = .done) :
    s.sequenceInv = true
      ↔ (5 ≤ s.opQ.toNat ∧ s.txIdx = 0 ∧ s.rxIdx = 0)
        ∨ (s.opQ.toNat ≤ 4 ∧ s.txIdx.toNat = txLen s.opQ ∧ s.rxIdx.toNat = rxNeed s.opQ) := by
  simp [State.sequenceInv, hp, and_assoc]

/-- Away from TX with a reserved selector the step answers a next state; there it faults. -/
theorem step_eq_next_or_fault (s : State) :
    (¬(s.phase = .tx ∧ 5 ≤ s.opQ.toNat) ∧ ∃ t, step s = .next t)
      ∨ (s.phase = .tx ∧ 5 ≤ s.opQ.toNat ∧ step s = .fault .noFrame) := by
  cases hp : s.phase with
  | idle =>
    cases hc : s.cmdOffers with
    | nil => exact .inl ⟨by simp, _, step_of_idle_nothing_offered hp hc⟩
    | cons cw rest => exact .inl ⟨by simp, _, step_of_idle_offer hp hc⟩
  | tx =>
    rcases Nat.lt_or_ge 4 s.opQ.toNat with hop | hop
    · exact .inr ⟨rfl, hop, step_of_reserved_tx hp hop⟩
    · exact .inl ⟨by omega, _, step_of_tx hp hop⟩
  | rxq =>
    rcases step_of_reading (.inl hp) with ⟨_, _, h⟩ | h
    · exact .inl ⟨by simp, _, h⟩
    · exact .inl ⟨by simp, _, h⟩
  | rxr =>
    rcases step_of_reading (.inr hp) with ⟨_, _, h⟩ | h
    · exact .inl ⟨by simp, _, h⟩
    · exact .inl ⟨by simp, _, h⟩
  | done => exact .inl ⟨by simp, _, step_of_done hp⟩

end Sys2Proof.Machine
end

section
/-! PROOFS. Rows outside their phase, the decoded instruction and the placed one. -/

namespace Sys2Proof.Machine

variable {s : State}

/-- Settles O37: a frame row is `sendFrame` of its bytes and a response row `readBytes` of its
bytes, and neither does anything outside its phases. -/
theorem wireRowsWaitOutsideTheirPhase : Obligations.WireRowsWaitOutsideTheirPhase := by
  intro i s
  constructor
  · intro hspace htx
    rw [exec_of_encode_frame (Prod.ext hspace rfl), sendFrame_of_not_tx _ htx]
  · intro hspace hq hr
    rw [exec_of_encode_response (Prod.ext hspace rfl), readBytes_of_not_reading hq hr]

/-- Settles O38: in each phase the fetch gives the decoded row. -/
theorem stepRunsTheDecodedInstruction : Obligations.StepRunsTheDecodedInstruction := by
  intro i s
  refine ⟨fun cw rest hp hc hd => ?_, fun hp hd => ?_, fun bytes rest hp hx hlen ha hd => ?_⟩
  · rw [decode, decodeCommandBytes_bytesOfWord] at hd
    rw [← Except.ok.inj hd]
    exact step_of_fetch_instr (fetch_of_idle_offer hp hc)
  · exact step_of_fetch_instr (fetch_of_tx hp (decodeFrame_ok_iff.mp hd))
  · exact step_of_fetch_instr ((fetch_of_reading hp).trans
      (fetchResponse_of_ready hx hlen ha (decodeResponse_ok_iff.mp hd)))

/-! ### Placing a frame: the operand to latch has the row's fields (30_encoding R76) -/

theorem toNat_magnitudeOf (a : BitVec 5) (b : BitVec 7) :
    (magnitudeOf a b).toNat = a.toNat + 32 * b.toNat := by
  unfold magnitudeOf
  bv_omega

theorem toNat_limitValueOf (a : BitVec 7) (b : BitVec 5) :
    (limitValueOf a b).toNat = a.toNat + 128 * b.toNat := by
  unfold limitValueOf
  bv_omega

theorem low5_magnitudeOf (a : BitVec 5) (b : BitVec 7) : low5 (magnitudeOf a b) = a.setWidth 8 := by
  have h := toNat_magnitudeOf a b
  rw [low5_eq_setWidth]
  congr 1
  bv_omega

theorem high7_magnitudeOf (a : BitVec 5) (b : BitVec 7) :
    high7 (magnitudeOf a b) = b.setWidth 8 := by
  have h := toNat_magnitudeOf a b
  rw [high7_eq_setWidth]
  congr 1
  bv_omega

theorem low7_limitValueOf (a : BitVec 7) (b : BitVec 5) :
    low7 (limitValueOf a b) = a.setWidth 8 := by
  have h := toNat_limitValueOf a b
  rw [low7_eq_setWidth]
  congr 1
  bv_omega

theorem high5_limitValueOf (a : BitVec 7) (b : BitVec 5) :
    high5 (limitValueOf a b) = b.setWidth 8 := by
  have h := toNat_limitValueOf a b
  rw [high5_eq_setWidth]
  congr 1
  bv_omega

/-- The frame of a speed from 0 up to 32767. -/
theorem motorSpeedFrame_of_nonneg {arg : Half} (h : arg.toNat < 32768) :
    motorSpeedFrame arg = [0x85, low5 arg, high7 arg] := by
  have hsign : arg.msb = false := BitVec.msb_eq_false_iff_two_mul_lt.mpr (by omega)
  simp [motorSpeedFrame, speedOpcode, mag, hsign]

/-- The frame of the negative speed `-m`. -/
theorem motorSpeedFrame_neg {m : Half} (hpos : m ≠ 0) (h : m.toNat < 32768) :
    motorSpeedFrame (-m) = [0x86, low5 m, high7 m] := by
  have hm : m.toNat ≠ 0 := fun h0 => hpos (BitVec.eq_of_toNat_eq h0)
  have hneg : (-m).toNat = 65536 - m.toNat := by
    rw [BitVec.toNat_neg]
    omega
  have hsign : (-m).msb = true := BitVec.msb_eq_true_iff_two_mul_ge.mpr (by omega)
  have hmag : mag (-m) = m := by
    apply BitVec.eq_of_toNat_eq
    rw [mag, if_pos hsign, BitVec.toNat_ofNat, hneg]
    omega
  simp only [motorSpeedFrame, speedOpcode, hsign, hmag, if_true]

theorem motorSpeedFrame_magnitudeOf (a : BitVec 5) (b : BitVec 7) :
    motorSpeedFrame (magnitudeOf a b) = [0x85, a.setWidth 8, b.setWidth 8] := by
  have h := toNat_magnitudeOf a b
  rw [motorSpeedFrame_of_nonneg (by omega), low5_magnitudeOf, high7_magnitudeOf]

/-- The frame `[0x86, 0, 0]` is that of the speed -4096 (log 16); every other reverse frame is that
of the speed it says. -/
theorem motorSpeedFrame_reverseSpeed (a : BitVec 5) (b : BitVec 7) :
    motorSpeedFrame (reverseSpeed (magnitudeOf a b)) = [0x86, a.setWidth 8, b.setWidth 8] := by
  have h := toNat_magnitudeOf a b
  unfold reverseSpeed
  split
  · next h0 =>
    rw [h0] at h
    have ha : a = 0 := by bv_omega
    have hb : b = 0 := by bv_omega
    rw [ha, hb]
    rfl
  · next h0 => rw [motorSpeedFrame_neg h0 (by omega), low5_magnitudeOf, high7_magnitudeOf]

/-! ### Placing a row puts it where the step fetches -/

theorem placeInstr_of_commandFields {i : Instr} {op : Op} {id : Byte} {arg : Half}
    (h : commandFields i = some (op, id, arg)) (s : State) :
    placeInstr i s = placeCommand op id arg s := by
  cases i <;> cases h <;> rfl

/-- Placing a frame row latches a command with that frame. -/
theorem placeInstr_of_encode_frame {i : Instr} {f : List Byte} (h : encode i = (.frame, f))
    (s : State) : (placeInstr i s).phase = .tx ∧ (placeInstr i s).currentFrame = f := by
  cases i <;> cases h
  case frameSetSpeedForward.refl a b => exact ⟨rfl, motorSpeedFrame_magnitudeOf a b⟩
  case frameSetSpeedReverse.refl a b => exact ⟨rfl, motorSpeedFrame_reverseSpeed a b⟩
  case frameSetLimit.refl l a b =>
    refine ⟨rfl, ?_⟩
    rw [← low7_limitValueOf a b, ← high5_limitValueOf a b]
    rfl
  all_goals exact ⟨rfl, rfl⟩

/-- Placing a response row makes its bytes the next answers to a command that reads as many. -/
theorem placeInstr_of_encode_response {i : Instr} {bytes : List Byte}
    (h : encode i = (.response, bytes)) (s : State) :
    (placeInstr i s).phase = .rxq ∧ (placeInstr i s).rxIdx = 0
      ∧ bytes.length = rxNeed (placeInstr i s).opQ
      ∧ (placeInstr i s).rxrAnswers = bytes.map some ++ s.rxrAnswers := by
  cases i <;> cases h <;> exact ⟨rfl, rfl, rfl, rfl⟩

theorem fetch_placeInstr {i : Instr} (hw : i.wellFormed = true) (s : State) :
    fetch (placeInstr i s) = .instr i := by
  rcases encode_space_cases i with ⟨f, hi⟩ | ⟨bytes, hi⟩ | ⟨op, id, arg, hi⟩
  · obtain ⟨hp, hf⟩ := placeInstr_of_encode_frame hi s
    exact fetch_of_tx hp (hf ▸ hi)
  · obtain ⟨hp, hx, hlen, ha⟩ := placeInstr_of_encode_response hi s
    exact (fetch_of_reading (.inl hp)).trans (fetchResponse_of_ready hx hlen ha hi)
  · rw [placeInstr_of_commandFields hi, ← decodeCommand_cmdWord hw hi]
    exact fetch_of_idle_offer rfl rfl

/-- Settles O39. -/
theorem placedInstructionRuns : Obligations.PlacedInstructionRuns := fun _ s hw =>
  ⟨fetch_placeInstr hw s, step_of_fetch_instr (fetch_placeInstr hw s)⟩

/-! ### Faults, latches and reset -/

/-- Settles O41: the only state without a next one is TX with a reserved selector, which the
invariants rule out. -/
theorem stepFaultsOnlyWithoutAFrame : Obligations.StepFaultsOnlyWithoutAFrame := by
  intro s
  rcases step_eq_next_or_fault s with ⟨hno, t, ht⟩ | ⟨hp, hop, hf⟩
  · refine ⟨fun r hr => ?_, ⟨fun ⟨r, hr⟩ => ?_, fun h => absurd h hno⟩, fun _ => ⟨t, ht⟩⟩
    · cases ht.symm.trans hr
    · cases ht.symm.trans hr
  · refine ⟨fun r hr => ?_, ⟨fun _ => ⟨hp, hop⟩, fun _ => ⟨_, hf⟩⟩, fun hinv => ?_⟩
    · cases hf.symm.trans hr
    · obtain ⟨hle, -, -, -⟩ := (sequenceInv_tx_iff hp).mp hinv
      omega

/-- Settles O25: of the five transfers only ACCEPT writes the latches, and it needs IDLE. -/
theorem onlyAcceptWritesTheLatches : Obligations.OnlyAcceptWritesTheLatches := by
  intro s hp hr
  have hclock : clockStep s = transferOf s.rstRead := by
    rcases opportunity_cases transferOf s with ⟨h, -⟩ | ⟨-, h⟩
    · cases hr.symm.trans h
    · exact h
  rw [hclock]
  rcases transferOf_cases s.rstRead with ⟨_, hidle, -, -⟩ | ⟨_, -, -, -, h⟩ | ⟨-, -, h⟩
    | ⟨_, -, -, -, h⟩ | ⟨-, -, h⟩ | h
  · exact absurd hidle hp
  all_goals simp [h]

/-- Settles O45: only the phase is looked at, and the flags are not, in IDLE. -/
theorem resetLeavesIdle : Obligations.ResetLeavesIdle :=
  ⟨rfl, rfl, rfl, rfl, rfl, rfl, rfl, sequenceInv_of_idle rfl, rfl⟩

/-! ### A reset sampled at a step's first opportunity is all that the step does -/

theorem opportunity_of_reset (h : s.rst.headD false = true) (f : State → State) :
    opportunity f s = s.rstRead.resetDone := if_pos h

theorem runCommand_of_reset (hp : s.phase = .idle) (h : s.rst.headD false = true) (op : Op)
    (id : Byte) (arg : Half) : runCommand op id arg s = s.rstRead.resetDone := by
  rw [runCommand_of_idle _ _ _ hp, opportunity_of_reset h, sendFrame_of_not_tx _ (by simp),
    readResponse_of_not_reading (by simp) (by simp), deliverResult_of_not_done (by simp)]

theorem sendFrame_of_reset (hp : s.phase = .tx) (h : s.rst.headD false = true) (f : List Byte) :
    sendFrame f s = s.rstRead.resetDone := by
  have hfirst : sendNext f s = s.rstRead.resetDone :=
    (if_pos hp).trans (opportunity_of_reset h (send f))
  rw [sendFrame, times, hfirst, times_of_fixed (sendNext_of_not_tx f (by simp))]

/-- In RXQ the request's opportunity is the reset, in RXR the answer's. -/
theorem readWith_of_reset (hp : s.phase = .rxq ∨ s.phase = .rxr) (h : s.rst.headD false = true)
    (a : Option Byte) : readWith a s = s.rstRead.resetDone := by
  rcases hp with hp | hp
  · rw [readWith, requestNext, if_pos hp, opportunity_of_reset h,
      receiveNext_of_not_rxr _ (by simp)]
  · rw [readWith, requestNext_of_not_rxq (by simp [hp]), receiveNext, if_pos hp,
      opportunity_of_reset h]

theorem readNext_of_reset (hp : s.phase = .rxq ∨ s.phase = .rxr) (h : s.rst.headD false = true) :
    readNext s = s.rstRead.resetDone := by
  rcases hp with hp | hp
  · rw [readNext, requestNext, if_pos hp, opportunity_of_reset h,
      receiveOffered_of_not_rxr (by simp)]
  · rw [readNext, requestNext_of_not_rxq (by simp [hp]), receiveOffered]
    split
    · rw [receiveNext, if_pos hp, opportunity_of_reset h]
    · rw [if_pos hp, opportunity_of_reset h]

theorem readBytes_of_reset (hp : s.phase = .rxq ∨ s.phase = .rxr) (h : s.rst.headD false = true)
    (b : Byte) (bs : List Byte) : readBytes (b :: bs) s = s.rstRead.resetDone := by
  rw [readBytes_cons, readWith_of_reset hp h, readBytes_of_not_reading (by simp) (by simp)]

theorem readResponse_of_reset (hp : s.phase = .rxq ∨ s.phase = .rxr)
    (h : s.rst.headD false = true) : readResponse s = s.rstRead.resetDone := by
  rw [readResponse, times, readNext_of_reset hp h,
    times_of_fixed (readNext_of_not_reading (by simp) (by simp))]

theorem step_of_reading_reset (hp : s.phase = .rxq ∨ s.phase = .rxr)
    (h : s.rst.headD false = true) : step s = .next s.rstRead.resetDone := by
  rcases step_of_reading hp with ⟨b, bs, e⟩ | e
  · rw [e, readBytes_of_reset hp h]
  · rw [e, readResponse_of_reset hp h]

/-- A step whose first sample of `rst` is 1 is the reset operation (70_reset_and_hazards R175,
R176). -/
theorem step_of_reset (hinv : s.sequenceInv = true) (h : s.rst.headD false = true) :
    step s = .next s.rstRead.resetDone := by
  cases hp : s.phase with
  | idle =>
    cases hc : s.cmdOffers with
    | nil => rw [step_of_idle_nothing_offered hp hc, opportunity_of_reset h]
    | cons cw rest => rw [step_of_idle_offer hp hc, runCommand_of_reset hp h]
  | tx =>
    obtain ⟨hop, -, -, -⟩ := (sequenceInv_tx_iff hp).mp hinv
    rw [step_of_tx hp hop, sendFrame_of_reset hp h]
  | rxq => exact step_of_reading_reset (.inl hp) h
  | rxr => exact step_of_reading_reset (.inr hp) h
  | done => rw [step_of_done hp, deliverResult, if_pos hp, opportunity_of_reset h]

/-- Settles O46: the step is the reset operation, whose writes are looked up field by field. -/
theorem resetFromAnyPhase : Obligations.ResetFromAnyPhase := by
  intro s later hinv hr
  refine ⟨_, step_of_reset hinv (by simp [hr]), ?_⟩
  simp [State.cmdReady, State.txValid, State.rxqValid, State.rxrReady, State.rspValid, hr]

end Sys2Proof.Machine
end

section
/-! PROOFS. Invariants: what each transfer keeps, every opportunity and every step keeps. -/

namespace Sys2Proof.Machine

variable {s t : State} {P : State → Prop}

/-- Every transfer keeps `P` where it is enabled (42_command_sequencer R127 to R131), and so do the
sampling of `rst` and the reset operation (70_reset_and_hazards R175). -/
structure TransfersKeep (P : State → Prop) : Prop where
  rstRead : ∀ s, P s → P s.rstRead
  resetDone : ∀ s, P s → P s.resetDone
  accepted : ∀ s op id arg, s.phase = .idle → P s → P (s.accepted op id arg)
  sent : ∀ s b, s.phase = .tx → s.txData = some b → P s → P (s.sent (txLen s.opQ) b)
  requested : ∀ s, s.phase = .rxq → P s → P s.requested
  received : ∀ s a, s.phase = .rxr → s.rxIdx.toNat < 2 → P s → P (s.received a)
  delivered : ∀ s, s.phase = .done → P s → P s.delivered

/-! ### One opportunity -/

theorem TransfersKeep.opportunity_keeps (hP : TransfersKeep P) {f : State → State}
    (hf : P s.rstRead → P (f s.rstRead)) (h : P s) : P (opportunity f s) := by
  rcases opportunity_cases f s with ⟨-, e⟩ | ⟨-, e⟩
  · rw [e]; exact hP.resetDone _ (hP.rstRead s h)
  · rw [e]; exact hf (hP.rstRead s h)

theorem TransfersKeep.accept_keeps (hP : TransfersKeep P) (op : Op) (id : Byte) (arg : Half)
    (h : P s) : P (accept op id arg s) := by
  rcases accept_cases op id arg s with ⟨hp, e⟩ | ⟨-, e⟩
  · rw [e]; exact hP.accepted s op id arg hp h
  · rwa [e]

theorem TransfersKeep.send_keeps (hP : TransfersKeep P) (h : P s) : P (send s.currentFrame s) := by
  rcases send_cases s.currentFrame s with ⟨b, hp, -, hb, e⟩ | ⟨-, e⟩
  · rw [e, State.currentFrame, frameOf_length]
    exact hP.sent s b hp hb h
  · rwa [e]

theorem TransfersKeep.request_keeps (hP : TransfersKeep P) (h : P s) : P (request s) := by
  rcases request_cases s with ⟨hp, -, e⟩ | ⟨-, e⟩
  · rw [e]; exact hP.requested s hp h
  · rwa [e]

theorem TransfersKeep.receive_keeps (hP : TransfersKeep P) (a : Option Byte) (h : P s) :
    P (receive a s) := by
  rcases receive_cases a s with ⟨hp, hx, e⟩ | ⟨-, e⟩
  · rw [e]; exact hP.received s a hp hx h
  · rwa [e]

theorem TransfersKeep.deliver_keeps (hP : TransfersKeep P) (h : P s) : P (deliver s) := by
  rcases deliver_cases s with ⟨hp, -, e⟩ | ⟨-, e⟩
  · rw [e]; exact hP.delivered s hp h
  · rwa [e]

theorem TransfersKeep.transferOf_keeps (hP : TransfersKeep P) (h : P s) : P (transferOf s) := by
  rcases transferOf_cases s with ⟨cw, hp, -, e⟩ | ⟨b, hp, -, hb, e⟩ | ⟨hp, -, e⟩
    | ⟨a, hp, -, hx, e⟩ | ⟨hp, -, e⟩ | e <;> rw [e]
  · exact hP.accepted s _ _ _ hp h
  · exact hP.sent s b hp hb h
  · exact hP.requested s hp h
  · exact hP.received s a hp hx h
  · exact hP.delivered s hp h
  · exact h

/-- The small-step machine keeps what every transfer keeps. -/
theorem TransfersKeep.clockStep_keeps (hP : TransfersKeep P) (h : P s) : P (clockStep s) :=
  hP.opportunity_keeps hP.transferOf_keeps h

/-! ### Runs of opportunities -/

/-- The frame sent is that of the latched command, which SEND does not change. -/
theorem TransfersKeep.sendFrame_keeps (hP : TransfersKeep P) {f : List Byte}
    (hf : s.phase = .tx → s.currentFrame = f) (h : P s) : P (sendFrame f s) := by
  refine (Machine.sendFrame_keeps (P := fun u => P u ∧ (u.phase = .tx → u.currentFrame = f)) f
    (fun u hp ⟨hu, huf⟩ => ?_) ⟨h, hf⟩).1
  have hfu : u.rstRead.currentFrame = f := huf hp
  refine ⟨hP.opportunity_keeps (fun h' => hfu ▸ hP.send_keeps h') hu, ?_⟩
  rcases opportunity_cases (send f) u with ⟨-, e⟩ | ⟨-, e⟩
  · simp [e]
  · rcases send_cases f u.rstRead with ⟨b, -, -, -, e'⟩ | ⟨-, e'⟩ <;>
      exact fun _ => by rw [e, e']; exact hfu

theorem TransfersKeep.readWith_keeps (hP : TransfersKeep P) (a : Option Byte) (h : P s) :
    P (readWith a s) := by
  have hq : P (requestNext s) := by
    unfold requestNext
    split
    · exact hP.opportunity_keeps hP.request_keeps h
    · exact h
  unfold readWith receiveNext
  split
  · exact hP.opportunity_keeps (hP.receive_keeps a) hq
  · exact hq

theorem TransfersKeep.readBytes_keeps (hP : TransfersKeep P) :
    ∀ (bytes : List Byte) (s : State), P s → P (readBytes bytes s)
  | [], _, h => h
  | b :: bs, s, h => hP.readBytes_keeps bs (readWith (some b) s) (hP.readWith_keeps (some b) h)

theorem TransfersKeep.readResponse_keeps (hP : TransfersKeep P) (h : P s) : P (readResponse s) :=
  Machine.readResponse_keeps (fun _ _ => hP.opportunity_keeps hP.request_keeps)
    (fun _ a _ _ => hP.opportunity_keeps (hP.receive_keeps a))
    (fun _ _ _ => hP.opportunity_keeps (fun h' => h')) h

theorem TransfersKeep.deliverResult_keeps (hP : TransfersKeep P) (h : P s) :
    P (deliverResult s) := by
  unfold deliverResult
  split
  · exact hP.opportunity_keeps hP.deliver_keeps h
  · exact h

/-- After ACCEPT's opportunity the frame to send, if any, is that of the command accepted. -/
theorem currentFrame_of_accept (op : Op) (id : Byte) (arg : Half) (hp : s.phase = .idle) :
    (opportunity (accept op id arg) s).phase = .tx →
      (opportunity (accept op id arg) s).currentFrame = frameOf op id arg := by
  rcases opportunity_cases (accept op id arg) s with ⟨-, e⟩ | ⟨-, e⟩
  · simp [e]
  · rw [e, accept, if_pos (show s.rstRead.phase = .idle from hp)]
    exact fun _ => rfl

theorem TransfersKeep.runCommand_keeps (hP : TransfersKeep P) (op : Op) (id : Byte) (arg : Half)
    (h : P s) : P (runCommand op id arg s) := by
  by_cases hp : s.phase = .idle
  · rw [runCommand_of_idle op id arg hp]
    exact hP.deliverResult_keeps (hP.readResponse_keeps (hP.sendFrame_keeps
      (currentFrame_of_accept op id arg hp) (hP.opportunity_keeps (hP.accept_keeps op id arg) h)))
  · rwa [runCommand_of_busy op id arg hp]

theorem TransfersKeep.step_of_reading_keeps (hP : TransfersKeep P)
    (hp : s.phase = .rxq ∨ s.phase = .rxr) (h : P s) (hs : step s = .next t) : P t := by
  rcases step_of_reading hp with ⟨b, bs, e⟩ | e <;> cases e.symm.trans hs
  · exact hP.readBytes_keeps (b :: bs) s h
  · exact hP.readResponse_keeps h

/-- A step keeps what every transfer keeps. -/
theorem TransfersKeep.step_keeps (hP : TransfersKeep P) (h : P s) (hs : step s = .next t) :
    P t := by
  cases hp : s.phase with
  | idle =>
    cases hc : s.cmdOffers with
    | nil =>
      cases (step_of_idle_nothing_offered hp hc).symm.trans hs
      exact hP.opportunity_keeps (fun h' => h') h
    | cons cw rest =>
      cases (step_of_idle_offer hp hc).symm.trans hs
      exact hP.runCommand_keeps _ _ _ h
  | tx =>
    rcases Nat.lt_or_ge 4 s.opQ.toNat with hop | hop
    · cases (step_of_reserved_tx hp hop).symm.trans hs
    · cases (step_of_tx hp hop).symm.trans hs
      exact hP.sendFrame_keeps (fun _ => rfl) h
  | rxq => exact hP.step_of_reading_keeps (.inl hp) h hs
  | rxr => exact hP.step_of_reading_keeps (.inr hp) h hs
  | done =>
    cases (step_of_done hp).symm.trans hs
    exact hP.deliverResult_keeps h

/-! ### The invariants of 10_state R30 -/

theorem sequenceInv_accepted (op : Op) (id : Byte) (arg : Half) :
    (s.accepted op id arg).sequenceInv = true := by
  rcases Nat.lt_or_ge 4 op.toNat with hop | hop
  · have hp : (s.accepted op id arg).phase = .done := if_neg (by omega)
    exact (sequenceInv_done_iff hp).mpr (.inl ⟨hop, rfl, rfl⟩)
  · have hp : (s.accepted op id arg).phase = .tx := if_pos hop
    exact (sequenceInv_tx_iff hp).mpr ⟨hop, txLen_pos_of_command hop, rfl, rfl⟩

/-- A command with a frame and a response is `set_limit` or `get_variable` (R126). -/
theorem op_of_rxNeed_ne_zero {op : Op} (h : rxNeed op ≠ 0) : op = 2#3 ∨ op = 4#3 := by
  revert h; revert op; decide

/-- SEND moves on within the frame, or ends it and goes to DONE or RXQ by the command's reads. -/
theorem sequenceInv_sent (b : Byte) (hp : s.phase = .tx) (h : s.sequenceInv = true) :
    (s.sent (txLen s.opQ) b).sequenceInv = true := by
  obtain ⟨hop, htx, hrx, hto⟩ := (sequenceInv_tx_iff hp).mp h
  have hidx : (s.txIdx + 1).toNat = s.txIdx.toNat + 1 := by
    have := txLen_le_four s.opQ
    bv_omega
  have hrx0 : s.rxIdx.toNat = 0 := by rw [hrx]; rfl
  by_cases hlast : s.txIdx.toNat + 1 = txLen s.opQ
  · by_cases hneed : rxNeed s.opQ = 0
    · have hp' : (s.sent (txLen s.opQ) b).phase = .done := by simp [hlast, hneed]
      exact (sequenceInv_done_iff hp').mpr (.inr ⟨hop, hidx.trans hlast, hrx0.trans hneed.symm⟩)
    · have hp' : (s.sent (txLen s.opQ) b).phase = .rxq := by simp [hlast, hneed]
      exact (sequenceInv_reading_iff (.inl hp')).mpr
        ⟨op_of_rxNeed_ne_zero hneed, hidx.trans hlast,
          by rw [State.sent_rxIdx, State.sent_opQ]; omega⟩
  · have hp' : (s.sent (txLen s.opQ) b).phase = .tx := by simp [hlast, hp]
    exact (sequenceInv_tx_iff hp').mpr
      ⟨hop, by rw [State.sent_txIdx, State.sent_opQ, hidx]; omega, hrx, hto⟩

theorem sequenceInv_requested (hp : s.phase = .rxq) (h : s.sequenceInv = true) :
    s.requested.sequenceInv = true :=
  (sequenceInv_reading_iff (.inr rfl)).mpr ((sequenceInv_reading_iff (.inl hp)).mp h)

/-- RECV goes to DONE after the last read the command needs, and to the next request before. -/
theorem sequenceInv_received (a : Option Byte) (hp : s.phase = .rxr) (h : s.sequenceInv = true) :
    (s.received a).sequenceInv = true := by
  obtain ⟨hop, htx, hrx⟩ := (sequenceInv_reading_iff (.inr hp)).mp h
  have hidx : (s.rxIdx + 1).toNat = s.rxIdx.toNat + 1 := by
    have := rxNeed_le_two s.opQ
    bv_omega
  by_cases hlast : s.rxIdx.toNat + 1 = rxNeed s.opQ
  · have hp' : (s.received a).phase = .done := if_pos hlast
    have hle : s.opQ.toNat ≤ 4 := by rcases hop with e | e <;> rw [e] <;> decide
    exact (sequenceInv_done_iff hp').mpr (.inr ⟨hle, htx, hidx.trans hlast⟩)
  · have hp' : (s.received a).phase = .rxq := if_neg hlast
    exact (sequenceInv_reading_iff (.inl hp')).mpr
      ⟨hop, htx, by rw [State.received_rxIdx, State.received_opQ, hidx]; omega⟩

theorem transfersKeep_sequenceInv : TransfersKeep fun s => s.sequenceInv = true where
  rstRead _ h := h
  resetDone _ _ := sequenceInv_of_idle rfl
  accepted _ _ _ _ _ _ := sequenceInv_accepted _ _ _
  sent _ b hp _ h := sequenceInv_sent b hp h
  requested _ hp h := sequenceInv_requested hp h
  received _ a hp _ h := sequenceInv_received a hp h
  delivered _ _ _ := sequenceInv_of_idle rfl

/-- Each handshake output belongs to one phase (10_state R21), so at most one is 1. -/
theorem handshake_outputs_exclusive (s : State) :
    s.cmdReady.toNat + s.txValid.toNat + s.rxqValid.toNat + s.rxrReady.toNat + s.rspValid.toNat
      ≤ 1 := by
  unfold State.cmdReady State.txValid State.rxqValid State.rxrReady State.rspValid
  cases s.phase <;> decide

/-- Settles O48. -/
theorem sequenceInvariantKept : Obligations.SequenceInvariantKept :=
  ⟨sequenceInv_of_idle rfl, fun _ _ h hs => transfersKeep_sequenceInv.step_keeps h hs,
    fun _ h => transfersKeep_sequenceInv.clockStep_keeps h, handshake_outputs_exclusive⟩

/-! ### The invariant of the absence flags (10_state R24) -/

theorem absenceInv_iff :
    s.absenceInv = true ↔ s.phase = .idle
      ∨ ((s.rxTo.getLsbD 0 = true → 0 < s.rxIdx.toNat ∧ s.rxB0 = Config.sentinelByte)
        ∧ (s.rxTo.getLsbD 1 = true → 1 < s.rxIdx.toNat ∧ s.rxB1 = Config.sentinelByte)) := by
  simp only [State.absenceInv, Bool.or_eq_true, Bool.and_eq_true, Bool.not_eq_true', beq_iff_eq,
    decide_eq_true_eq, ← Bool.not_eq_true, imp_iff_not_or]

theorem sub_eq_sentinel_of_absentBit {sentinel : Byte} {a : Option Byte} (h : absentBit a = true) :
    sub sentinel a = sentinel := by
  cases a with
  | none => rfl
  | some b => cases h

/-- RECV writes the flag of its own read with that read's byte, and leaves the other's. -/
theorem absenceInv_received (a : Option Byte) (hp : s.phase = .rxr) (hx : s.rxIdx.toNat < 2)
    (h : s.absenceInv = true) : (s.received a).absenceInv = true := by
  obtain hidle | ⟨h0, h1⟩ := absenceInv_iff.mp h
  · cases hp.symm.trans hidle
  · obtain hrx | hrx : s.rxIdx = 0#2 ∨ s.rxIdx = 1#2 := by bv_omega
    · have hflag1 : ¬ s.rxTo.getLsbD 1 = true := fun hb => by
        obtain ⟨hlt, -⟩ := h1 hb
        omega
      refine absenceInv_iff.mpr (.inr ⟨fun hb => ?_, fun hb => ?_⟩)
      · have ha : absentBit a = true := by simpa [hrx] using hb
        simp [hrx, sub_eq_sentinel_of_absentBit ha]
      · exact absurd (by simpa [hrx] using hb) hflag1
    · refine absenceInv_iff.mpr (.inr ⟨fun hb => ?_, fun hb => ?_⟩)
      · obtain ⟨-, hb0⟩ := h0 (by simpa [hrx] using hb)
        simp [hrx, hb0]
      · have ha : absentBit a = true := by simpa [hrx] using hb
        simp [hrx, sub_eq_sentinel_of_absentBit ha]

/-- The transfers between requests write neither flags, bytes nor `rx_idx`. -/
theorem absenceInv_of_same_reads {s s' : State} (hp : s.phase ≠ .idle) (hx : s'.rxIdx = s.rxIdx)
    (hto : s'.rxTo = s.rxTo) (h0 : s'.rxB0 = s.rxB0) (h1 : s'.rxB1 = s.rxB1)
    (h : s.absenceInv = true) : s'.absenceInv = true := by
  rw [absenceInv_iff, hx, hto, h0, h1]
  exact .inr ((absenceInv_iff.mp h).resolve_left hp)

theorem transfersKeep_absenceInv : TransfersKeep fun s => s.absenceInv = true where
  rstRead _ h := h
  resetDone _ _ := absenceInv_iff.mpr (.inl rfl)
  accepted _ _ _ _ _ _ := absenceInv_iff.mpr (.inr (by simp))
  sent s _ hp _ h := absenceInv_of_same_reads (s := s) (by simp [hp]) rfl rfl rfl rfl h
  requested s hp h := absenceInv_of_same_reads (s := s) (by simp [hp]) rfl rfl rfl rfl h
  received _ a hp hx h := absenceInv_received a hp hx h
  delivered _ _ _ := absenceInv_iff.mpr (.inl rfl)

/-- Settles O49. -/
theorem absenceInvariantKept : Obligations.AbsenceInvariantKept :=
  fun _ _ h hs => transfersKeep_absenceInv.step_keeps h hs

end Sys2Proof.Machine
end

section
/-! PROOFS. Two runs of one command side by side: what the block held before plays no part. -/

namespace Sys2Proof.Machine

variable {past past' : List Event} {s s' : State}

/-- Two busy blocks are at the same point of the same command, as far as later transfers can tell:
the read bytes agree where a read was answered (10_state R23), and in DONE the records offered
do. -/
structure SameCommand (s s' : State) : Prop where
  opQ : s'.opQ = s.opQ
  txIdx : s'.txIdx = s.txIdx
  rxIdx : s'.rxIdx = s.rxIdx
  rxTo : s'.rxTo = s.rxTo
  rxB0 : 0 < s.rxIdx.toNat → s'.rxB0 = s.rxB0
  rxB1 : 1 < s.rxIdx.toNat → s'.rxB1 = s.rxB1
  record : s.phase = .done → s'.rspRecord = s.rspRecord

/-- Two runs that began with the records `past` and `past'` have done the same transfers since, and
have the same inputs left. What they hold is compared outside IDLE only. -/
structure SameRun (past past' : List Event) (s s' : State) : Prop where
  phase : s'.phase = s.phase
  rst : s'.rst = s.rst
  cmdOffers : s'.cmdOffers = s.cmdOffers
  txAllow : s'.txAllow = s.txAllow
  rxqAllow : s'.rxqAllow = s.rxqAllow
  rxrAnswers : s'.rxrAnswers = s.rxrAnswers
  rspAllow : s'.rspAllow = s.rspAllow
  trace : ∃ events, s.trace = past ++ events ∧ s'.trace = past' ++ events
  command : s.phase ≠ .idle → SameCommand s s'

/-- The record offered looks at the bytes that the class reads, and at no other (R131). -/
theorem rspRecord_congr (hop : s'.opQ = s.opQ) (hto : s'.rxTo = s.rxTo)
    (h0 : 0 < rxNeed s.opQ → s'.rxB0 = s.rxB0) (h1 : 1 < rxNeed s.opQ → s'.rxB1 = s.rxB1) :
    s'.rspRecord = s.rspRecord := by
  unfold rxNeed at h0 h1
  unfold State.rspRecord
  rw [hop, hto]
  match hc : responseClass s.opQ with
  | .none => rfl
  | .status => simp [h0 (by simp [hc])]
  | .variable => simp [h0 (by simp [hc]), h1 (by simp [hc])]
  | .illegal => rfl

/-! ### What has been read when a transfer goes to DONE (42_command_sequencer R127, R128, R130) -/

theorem rxNeed_of_accepted_done {op : Op} {id : Byte} {arg : Half}
    (h : (s.accepted op id arg).phase = .done) : rxNeed op = 0 := by
  rw [State.accepted_phase] at h
  split at h
  · cases h
  · next hop => rcases op_cases_of_five_le (Nat.lt_of_not_le hop) with rfl | rfl | rfl <;> rfl

theorem rxNeed_of_sent_done {len : Nat} {b : Byte} (hp : s.phase = .tx)
    (h : (s.sent len b).phase = .done) : rxNeed s.opQ = 0 := by
  rw [State.sent_phase] at h
  split_ifs at h with _ hneed
  · exact hneed
  · cases hp.symm.trans h

theorem rxNeed_of_received_done {a : Option Byte} (h : (s.received a).phase = .done) :
    s.rxIdx.toNat + 1 = rxNeed s.opQ := by
  rw [State.received_phase] at h
  split_ifs at h with hlast
  exact hlast

/-! ### The writes of each transfer -/

namespace SameRun

theorem trace_append (h : SameRun past past' s s') (e : Event) :
    ∃ events, s.trace ++ [e] = past ++ events ∧ s'.trace ++ [e] = past' ++ events := by
  obtain ⟨events, h1, h2⟩ := h.trace
  exact ⟨events ++ [e], by rw [h1, List.append_assoc], by rw [h2, List.append_assoc]⟩

theorem rstRead (h : SameRun past past' s s') : SameRun past past' s.rstRead s'.rstRead :=
  { h with
    rst := congrArg List.tail h.rst
    command := fun hp =>
      let c := h.command hp
      { c with } }

/-- After a reset nothing held is compared: both blocks are in IDLE. -/
theorem resetDone (h : SameRun past past' s s') : SameRun past past' s.resetDone s'.resetDone :=
  { h with
    phase := rfl
    trace := h.trace_append .reset
    command := fun hp => absurd rfl hp }

/-- ACCEPT writes all that the command's later transfers look at, whatever stood there before. -/
theorem accepted (h : SameRun past past' s s') (op : Op) (id : Byte) (arg : Half) :
    SameRun past past' (s.accepted op id arg) (s'.accepted op id arg) :=
  { h with
    phase := rfl
    cmdOffers := congrArg List.tail h.cmdOffers
    trace := h.trace_append (.cmd (cmdWord op id arg))
    command := fun _ =>
      { opQ := rfl, txIdx := rfl, rxIdx := rfl, rxTo := rfl
        rxB0 := fun hx => absurd hx (by simp)
        rxB1 := fun hx => absurd hx (by simp)
        record := fun hd => by
          have hneed : rxNeed op = 0 := rxNeed_of_accepted_done hd
          exact rspRecord_congr rfl rfl (fun hn => absurd hneed hn.ne') (fun hn => by
            rw [State.accepted_opQ] at hn
            omega) } }

theorem sent (h : SameRun past past' s s') (hp : s.phase = .tx) (len : Nat) (b : Byte) :
    SameRun past past' (s.sent len b) (s'.sent len b) := by
  have c := h.command (by simp [hp])
  exact
    { h with
      phase := by simp [c.txIdx, c.opQ, h.phase]
      txAllow := congrArg (spend 1) h.txAllow
      trace := h.trace_append (.tx b)
      command := fun _ =>
        { c with
          txIdx := congrArg (· + 1) c.txIdx
          record := fun hd => by
            have hneed : rxNeed s.opQ = 0 := rxNeed_of_sent_done hp hd
            exact rspRecord_congr c.opQ c.rxTo (fun hn => absurd hneed hn.ne') (fun hn => by
              rw [State.sent_opQ] at hn
              omega) } }

theorem requested (h : SameRun past past' s s') (hp : s.phase ≠ .idle) :
    SameRun past past' s.requested s'.requested :=
  { h with
    phase := rfl
    rxqAllow := congrArg (spend 1) h.rxqAllow
    trace := h.trace_append .readRequest
    command := fun _ =>
      let c := h.command hp
      { c with record := fun hd => nomatch hd } }

theorem received (h : SameRun past past' s s') (hp : s.phase ≠ .idle) (hx : s.rxIdx.toNat < 2)
    (a : Option Byte) : SameRun past past' (s.received a) (s'.received a) := by
  have c := h.command hp
  have hidx : (s.rxIdx + 1).toNat = s.rxIdx.toNat + 1 := by bv_omega
  have h0 : (s'.received a).rxB0 = (s.received a).rxB0 := by
    rw [State.received_rxB0, State.received_rxB0, c.rxIdx]
    split
    · rfl
    · next hne => exact c.rxB0 (Nat.pos_of_ne_zero hne)
  have h1 : 1 ≤ s.rxIdx.toNat → (s'.received a).rxB1 = (s.received a).rxB1 := fun hle => by
    have h1 : s.rxIdx.toNat = 1 := by omega
    rw [State.received_rxB1, State.received_rxB1, c.rxIdx, if_pos h1, if_pos h1]
  have hto : (s'.received a).rxTo = (s.received a).rxTo := by
    rw [State.received_rxTo, State.received_rxTo, c.rxTo, c.rxIdx]
  exact
    { h with
      phase := by simp [c.rxIdx, c.opQ]
      rxrAnswers := congrArg List.tail h.rxrAnswers
      trace := h.trace_append (.readAnswer a)
      command := fun _ =>
        { c with
          rxIdx := congrArg (· + 1) c.rxIdx
          rxTo := hto
          rxB0 := fun _ => h0
          rxB1 := fun hlt => h1 (by
            rw [State.received_rxIdx, hidx] at hlt
            omega)
          record := fun hd => by
            have hneed : s.rxIdx.toNat + 1 = rxNeed s.opQ := rxNeed_of_received_done hd
            exact rspRecord_congr c.opQ hto (fun _ => h0) (fun hn => h1 (by
              rw [State.received_opQ] at hn
              omega)) } }

theorem delivered (h : SameRun past past' s s') (hp : s.phase = .done) :
    SameRun past past' s.delivered s'.delivered :=
  { h with
    phase := rfl
    rspAllow := congrArg (spend 1) h.rspAllow
    trace := by
      have hrec := (h.command (by simp [hp])).record hp
      simpa [hrec] using h.trace_append (.result s.rspRecord)
    command := fun hi => absurd rfl hi }

/-! ### The transfers: each is enabled in both runs or in neither -/

theorem accept (h : SameRun past past' s s') (op : Op) (id : Byte) (arg : Half) :
    SameRun past past' (accept op id arg s) (accept op id arg s') := by
  unfold Machine.accept
  rw [h.phase]
  split
  · exact h.accepted op id arg
  · exact h

theorem send (h : SameRun past past' s s') (f : List Byte) :
    SameRun past past' (send f s) (send f s') := by
  unfold Machine.send State.txReady
  rw [h.phase, h.txAllow]
  split
  · next hen =>
    have c := h.command (by simp [hen.1])
    rw [c.txIdx]
    split
    · exact h.sent hen.1 _ _
    · exact h
  · exact h

theorem request (h : SameRun past past' s s') : SameRun past past' (request s) (request s') := by
  unfold Machine.request State.rxqReady
  rw [h.phase, h.rxqAllow]
  split
  · next hen => exact h.requested (by simp [hen.1])
  · exact h

theorem receive (h : SameRun past past' s s') (a : Option Byte) :
    SameRun past past' (receive a s) (receive a s') := by
  by_cases hp : s.phase = .rxr
  · have c := h.command (by simp [hp])
    unfold Machine.receive
    rw [h.phase, c.rxIdx]
    split
    · next hen => exact h.received (by simp [hp]) hen.2 a
    · exact h
  · rcases receive_cases a s with ⟨hp', -⟩ | ⟨-, e⟩
    · exact absurd hp' hp
    · rcases receive_cases a s' with ⟨hp', -⟩ | ⟨-, e'⟩
      · exact absurd (h.phase.symm.trans hp') hp
      · rwa [e, e']

theorem deliver (h : SameRun past past' s s') : SameRun past past' (deliver s) (deliver s') := by
  unfold Machine.deliver State.rspReady
  rw [h.phase, h.rspAllow]
  split
  · next hen => exact h.delivered hen.1
  · exact h

theorem opportunity (h : SameRun past past' s s') {f : State → State}
    (hf : SameRun past past' s.rstRead s'.rstRead →
      SameRun past past' (f s.rstRead) (f s'.rstRead)) :
    SameRun past past' (opportunity f s) (opportunity f s') := by
  unfold Machine.opportunity
  rw [h.rst]
  split
  · exact h.rstRead.resetDone
  · exact hf h.rstRead

/-! ### The runs of transfers -/

theorem times {f : State → State}
    (hf : ∀ s s', SameRun past past' s s' → SameRun past past' (f s) (f s')) :
    ∀ n s s', SameRun past past' s s' → SameRun past past' (times n f s) (times n f s')
  | 0, _, _, h => h
  | n + 1, s, s', h => times hf n (f s) (f s') (hf s s' h)

theorem sendFrame (h : SameRun past past' s s') (f : List Byte) :
    SameRun past past' (sendFrame f s) (sendFrame f s') := by
  refine times (fun s s' h => ?_) 4 s s' h
  unfold sendNext
  rw [h.phase]
  split
  · exact h.opportunity fun h => h.send f
  · exact h

theorem requestNext (h : SameRun past past' s s') :
    SameRun past past' (requestNext s) (requestNext s') := by
  unfold Machine.requestNext
  rw [h.phase]
  split
  · exact h.opportunity request
  · exact h

theorem receiveOffered (h : SameRun past past' s s') :
    SameRun past past' (receiveOffered s) (receiveOffered s') := by
  unfold Machine.receiveOffered receiveNext State.answerOffered
  rw [h.phase, h.rxrAnswers]
  split
  · split
    · exact h.opportunity fun h => h.receive _
    · exact h
  · split
    · exact h.opportunity fun h => h
    · exact h

theorem readResponse (h : SameRun past past' s s') :
    SameRun past past' (readResponse s) (readResponse s') :=
  times (fun _ _ h => h.requestNext.receiveOffered) 2 s s' h

theorem deliverResult (h : SameRun past past' s s') :
    SameRun past past' (deliverResult s) (deliverResult s') := by
  unfold Machine.deliverResult
  rw [h.phase]
  split
  · exact h.opportunity deliver
  · exact h

theorem runCommand (h : SameRun past past' s s') (op : Op) (id : Byte) (arg : Half) :
    SameRun past past' (runCommand op id arg s) (runCommand op id arg s') := by
  unfold Machine.runCommand
  rw [h.phase]
  split
  · exact (((h.opportunity fun h => h.accept op id arg).sendFrame _).readResponse).deliverResult
  · exact h

/-- From IDLE both runs answer a step, and stay the same run. -/
theorem step_of_idle (h : SameRun past past' s s') (hp : s.phase = .idle) :
    ∃ t t', step s = .next t ∧ step s' = .next t' ∧ SameRun past past' t t' := by
  have hp' := h.phase.trans hp
  cases hc : s.cmdOffers with
  | nil =>
    exact ⟨_, _, step_of_idle_nothing_offered hp hc,
      step_of_idle_nothing_offered hp' (h.cmdOffers.trans hc), h.opportunity fun h => h⟩
  | cons cw rest =>
    exact ⟨_, _, step_of_idle_offer hp hc, step_of_idle_offer hp' (h.cmdOffers.trans hc),
      h.runCommand _ _ _⟩

end SameRun

/-- Settles O54: two idle blocks with the same inputs are in the same run, since what they hold is
compared outside IDLE only. -/
theorem nothingSurvivesACommand : Obligations.NothingSurvivesACommand := by
  intro s op id arg i j b0 b1 flags past hp s'
  have hsame : SameRun s.trace past s s' :=
    { phase := rfl, rst := rfl, cmdOffers := rfl, txAllow := rfl, rxqAllow := rfl
      rxrAnswers := rfl, rspAllow := rfl
      trace := ⟨[], (List.append_nil _).symm, (List.append_nil _).symm⟩
      command := fun hbusy => absurd hp hbusy }
  obtain ⟨t, t', ht, ht', h⟩ := hsame.step_of_idle hp
  obtain ⟨events, htrace, htrace'⟩ := h.trace
  exact ⟨t, t', events, ht, ht', htrace, htrace', h.phase, h.rst, h.cmdOffers, h.txAllow,
    h.rxqAllow, h.rxrAnswers, h.rspAllow⟩

end Sys2Proof.Machine
end

section
/-! PROOFS. What a command does when nothing holds it up: one lemma for each run of transfers, then
the whole command, then any number of them (42_command_sequencer R132, 70_reset_and_hazards R190). -/

namespace Sys2Proof.Machine

variable {s t : State}

/-! ### The inputs as they are used up -/

theorem tail_tail {α : Type} (l : List α) : l.tail.tail = l.drop 2 := by
  rw [← List.drop_one, ← List.drop_one, List.drop_drop]

theorem atLeast_spend {k m n : Nat} {a : Option Nat} (h : atLeast k a = true) (hk : m + n ≤ k) :
    atLeast n (spend m a) = true := by
  cases a with
  | none => rfl
  | some j =>
    have hj : k ≤ j := of_decide_eq_true h
    exact decide_eq_true (show n ≤ j - m by omega)

theorem allows_of_atLeast {k : Nat} {a : Option Nat} (h : atLeast k a = true) (hk : 0 < k) :
    allows a = true := by
  cases a with
  | none => rfl
  | some j =>
    have hj : k ≤ j := of_decide_eq_true h
    exact decide_eq_true (show 0 < j by omega)

@[simp] theorem spend_zero (a : Option Nat) : spend 0 a = a := by cases a <;> rfl

theorem quiet_iff {n : Nat} : s.quiet n = true ↔ ∀ b ∈ s.rst.take n, b = false := by
  simp [State.quiet]

theorem headD_of_quiet {k : Nat} (h : s.quiet k = true) (hk : 0 < k) :
    s.rst.headD false = false := by
  obtain ⟨n, rfl⟩ := Nat.exists_eq_succ_of_ne_zero hk.ne'
  rw [quiet_iff] at h
  cases hr : s.rst with
  | nil => rfl
  | cons b rest => exact h b (by simp [hr])

/-- What is quiet for `k` opportunities is so for the rest of them once `m` samples of `rst` have
been read. -/
theorem quiet_of_rst_drop {k m n : Nat} (h : s.quiet k = true) (hr : t.rst = s.rst.drop m)
    (hk : m + n ≤ k) : t.quiet n = true := by
  rw [quiet_iff] at h ⊢
  intro b hb
  rw [hr, List.take_drop] at hb
  exact h b ((List.take_subset_take_left s.rst hk) (List.mem_of_mem_drop hb))

theorem readyFor_iff {n tx rxq : Nat} :
    s.readyFor n tx rxq = true ↔ s.phase = .idle ∧ s.quiet n = true ∧ atLeast tx s.txAllow = true
      ∧ atLeast rxq s.rxqAllow = true ∧ s.rspReady = true := by
  simp [State.readyFor, and_assoc]

/-! ### Single transfers that nothing holds up -/

theorem opportunity_of_no_reset (h : s.rst.headD false = false) (f : State → State) :
    opportunity f s = f s.rstRead := if_neg (by rw [h]; exact Bool.false_ne_true)

theorem sendNext_of_ready {f : List Byte} (hp : s.phase = .tx) (hr : s.rst.headD false = false)
    (ha : s.txReady = true) (hx : s.txIdx.toNat < f.length) :
    sendNext f s = s.rstRead.sent f.length f[s.txIdx.toNat] := by
  have hen : s.rstRead.phase = .tx ∧ s.rstRead.txReady = true := ⟨hp, ha⟩
  rw [sendNext, if_pos hp, opportunity_of_no_reset hr, send, if_pos hen, State.rstRead_txIdx,
    List.getElem?_eq_getElem hx]

theorem requestNext_of_ready (hp : s.phase = .rxq) (hr : s.rst.headD false = false)
    (ha : s.rxqReady = true) : requestNext s = s.rstRead.requested := by
  have hen : s.rstRead.phase = .rxq ∧ s.rstRead.rxqReady = true := ⟨hp, ha⟩
  rw [requestNext, if_pos hp, opportunity_of_no_reset hr, request, if_pos hen]

theorem receiveNext_of_ready (hp : s.phase = .rxr) (hr : s.rst.headD false = false)
    (hx : s.rxIdx.toNat < 2) (a : Option Byte) : receiveNext a s = s.rstRead.received a := by
  have hen : s.rstRead.phase = .rxr ∧ s.rstRead.rxIdx.toNat < 2 := ⟨hp, hx⟩
  rw [receiveNext, if_pos hp, opportunity_of_no_reset hr, receive, if_pos hen]

theorem deliverResult_of_ready (hp : s.phase = .done) (hr : s.rst.headD false = false)
    (ha : s.rspReady = true) : deliverResult s = s.rstRead.delivered := by
  have hen : s.rstRead.phase = .done ∧ s.rstRead.rspReady = true := ⟨hp, ha⟩
  rw [deliverResult, if_pos hp, opportunity_of_no_reset hr, deliver, if_pos hen]

/-! ### The rest of a frame (42_command_sequencer R128) -/

/-- The phase after a frame's last byte. -/
def phaseAfterFrame (op : Op) : Phase := if rxNeed op = 0 then .done else .rxq

/-- The phase is that of a block with `tx_idx` bytes of a frame of `len` bytes sent. -/
def State.Sending (s : State) (len : Nat) : Prop :=
  s.phase = if s.txIdx.toNat = len then phaseAfterFrame s.opQ else .tx

/-- The state once the rest of frame `f` is sent. -/
def State.frameSent (s : State) (f : List Byte) : State :=
  { s with
    phase := phaseAfterFrame s.opQ
    txIdx := BitVec.ofNat 3 f.length
    rst := s.rst.drop (f.length - s.txIdx.toNat)
    txAllow := spend (f.length - s.txIdx.toNat) s.txAllow
    trace := s.trace ++ (f.drop s.txIdx.toNat).map .tx }

theorem phaseAfterFrame_ne_tx (op : Op) : phaseAfterFrame op ≠ .tx := by
  unfold phaseAfterFrame
  split <;> simp

theorem phase_ne_tx_of_all_sent {len : Nat} (hs : s.Sending len) (hx : s.txIdx.toNat = len) :
    s.phase ≠ .tx := by
  rw [State.Sending, if_pos hx] at hs
  exact hs ▸ phaseAfterFrame_ne_tx s.opQ

theorem frameSent_of_all_sent {f : List Byte} (hs : s.Sending f.length)
    (hx : s.txIdx.toNat = f.length) : s.frameSent f = s := by
  rw [State.Sending, if_pos hx] at hs
  have hidx : BitVec.ofNat 3 f.length = s.txIdx := by rw [← hx, BitVec.ofNat_toNat]; simp
  simp [State.frameSent, hx, hidx, ← hs]

theorem toNat_txIdx_succ {len : Nat} (hlen : len ≤ 4) (hx : s.txIdx.toNat < len) :
    (s.txIdx + 1).toNat = s.txIdx.toNat + 1 := by bv_omega

theorem sending_sent {len : Nat} (hlen : len ≤ 4) (hx : s.txIdx.toNat < len) (hp : s.phase = .tx)
    (b : Byte) : (s.rstRead.sent len b).Sending len := by
  rw [State.Sending, State.sent_txIdx, State.rstRead_txIdx, toNat_txIdx_succ hlen hx,
    State.sent_phase, State.rstRead_phase, hp]
  rfl

/-- Sending one byte leaves the rest of the same frame to send. -/
theorem frameSent_sent {f : List Byte} (hlen : f.length ≤ 4) (hx : s.txIdx.toNat < f.length) :
    (s.rstRead.sent f.length f[s.txIdx.toNat]).frameSent f = s.frameSent f := by
  have hleft : f.length - s.txIdx.toNat = f.length - (s.txIdx.toNat + 1) + 1 := by omega
  have hbytes : [.tx f[s.txIdx.toNat]] ++ (f.drop (s.txIdx.toNat + 1)).map Event.tx
      = (f.drop s.txIdx.toNat).map .tx := by
    rw [List.drop_eq_getElem_cons hx]
    rfl
  simp only [State.frameSent, State.sent, State.rstRead, toNat_txIdx_succ hlen hx,
    List.append_assoc, hbytes, hleft, List.drop_tail, spend_spend, Nat.add_comm 1]

/-- As many SEND opportunities as there are bytes left, or more, send the rest of the frame. -/
theorem times_sendNext_of_ready {f : List Byte} (hlen : f.length ≤ 4) (n : Nat) (s : State)
    (hn : f.length - s.txIdx.toNat ≤ n) (hx : s.txIdx.toNat ≤ f.length) (hs : s.Sending f.length)
    (hq : s.quiet (f.length - s.txIdx.toNat) = true)
    (ha : atLeast (f.length - s.txIdx.toNat) s.txAllow = true) :
    times n (sendNext f) s = s.frameSent f := by
  induction n generalizing s with
  | zero => exact (frameSent_of_all_sent hs (by omega)).symm
  | succ n ih =>
    rcases Nat.eq_or_lt_of_le hx with hlast | hlt
    · rw [times_of_fixed (sendNext_of_not_tx f (phase_ne_tx_of_all_sent hs hlast)),
        frameSent_of_all_sent hs hlast]
    · have hp : s.phase = .tx := hs.trans (if_neg hlt.ne)
      have hidx := toNat_txIdx_succ hlen hlt
      rw [times, sendNext_of_ready hp (headD_of_quiet hq (by omega))
        (allows_of_atLeast ha (by omega)) hlt, ← frameSent_sent hlen hlt]
      refine ih _ ?_ ?_ (sending_sent hlen hlt hp _) ?_ ?_ <;>
        rw [State.sent_txIdx, State.rstRead_txIdx, hidx]
      · omega
      · omega
      · exact quiet_of_rst_drop (m := 1) hq List.drop_one.symm (by omega)
      · exact atLeast_spend ha (by omega)

/-- The rest of a frame goes to the link, opcode first (20_memory R48). -/
theorem sendFrame_of_ready {f : List Byte} (hlen : f.length ≤ 4) (hx : s.txIdx.toNat ≤ f.length)
    (hs : s.Sending f.length) (hq : s.quiet (f.length - s.txIdx.toNat) = true)
    (ha : atLeast (f.length - s.txIdx.toNat) s.txAllow = true) : sendFrame f s = s.frameSent f :=
  times_sendNext_of_ready hlen 4 s (by omega) hx hs hq ha

/-! ### The reads of a response (42_command_sequencer R129, R130) -/

/-- The phase is that of a block with its frame sent and `rx_idx` reads of a response answered. -/
def State.Reading (s : State) : Prop :=
  s.phase = if s.rxIdx.toNat = rxNeed s.opQ then .done else .rxq

/-- The state after one read, request and answer. -/
def State.answered (s : State) (a : Option Byte) : State := s.rstRead.requested.rstRead.received a

/-- The state after reads with these answers, in order. -/
def State.answeredAll (s : State) : List (Option Byte) → State
  | [] => s
  | a :: answers => (s.answered a).answeredAll answers

theorem toNat_rxIdx_succ (hx : s.rxIdx.toNat < 2) : (s.rxIdx + 1).toNat = s.rxIdx.toNat + 1 := by
  bv_omega

theorem answered_rst (s : State) (a : Option Byte) : (s.answered a).rst = s.rst.drop 2 :=
  tail_tail s.rst

theorem answered_rxIdx (hx : s.rxIdx.toNat < 2) (a : Option Byte) :
    (s.answered a).rxIdx.toNat = s.rxIdx.toNat + 1 := toNat_rxIdx_succ hx

theorem reading_answered (hx : s.rxIdx.toNat < 2) (a : Option Byte) : (s.answered a).Reading := by
  rw [State.Reading, answered_rxIdx hx]
  rfl

theorem readWith_of_ready (hp : s.phase = .rxq) (hx : s.rxIdx.toNat < 2) (hq : s.quiet 2 = true)
    (ha : s.rxqReady = true) (a : Option Byte) : readWith a s = s.answered a := by
  have hq' : s.rstRead.requested.quiet 1 = true :=
    quiet_of_rst_drop (m := 1) hq List.drop_one.symm (by omega)
  rw [readWith, requestNext_of_ready hp (headD_of_quiet hq (by omega)) ha,
    receiveNext_of_ready rfl (headD_of_quiet hq' (by omega)) hx, State.answered]

/-- As many reads as the command still needs, or more, take the answers it needs. -/
theorem times_readNext_of_ready (n : Nat) (s : State) (answers rest : List (Option Byte))
    (hn : answers.length ≤ n) (hneed : s.rxIdx.toNat + answers.length = rxNeed s.opQ)
    (hs : s.Reading) (hq : s.quiet (2 * answers.length) = true)
    (ha : atLeast answers.length s.rxqAllow = true) (hr : s.rxrAnswers = answers ++ rest) :
    times n readNext s = s.answeredAll answers := by
  induction answers generalizing n s with
  | nil =>
    have hp : s.phase = .done := hs.trans (if_pos hneed)
    exact times_of_fixed (readNext_of_not_reading (by simp [hp]) (by simp [hp])) n
  | cons a answers ih =>
    obtain ⟨m, rfl⟩ : ∃ m, n = m + 1 := Nat.exists_eq_succ_of_ne_zero (by
      rintro rfl
      cases hn)
    rw [List.length_cons] at hn hneed hq ha
    have hneed2 := rxNeed_le_two s.opQ
    have hx : s.rxIdx.toNat < 2 := by omega
    have hp : s.phase = .rxq := hs.trans (if_neg (by omega))
    have hq2 : s.quiet 2 = true := quiet_of_rst_drop (m := 0) hq rfl (by omega)
    rw [times, readNext_eq_readWith (hr.trans (List.cons_append ..)),
      readWith_of_ready hp hx hq2 (allows_of_atLeast ha (by omega)), State.answeredAll]
    refine ih m _ (by omega) ?_ (reading_answered hx a) ?_ ?_ ?_
    · rw [answered_rxIdx hx, Nat.add_assoc, Nat.add_comm 1]
      exact hneed
    · exact quiet_of_rst_drop (m := 2) hq (answered_rst s a) (by omega)
    · exact atLeast_spend ha (by omega)
    · simp [State.answered, hr]

/-- The reads of a response whose answers the link has ready. -/
theorem readResponse_of_ready {answers rest : List (Option Byte)}
    (hneed : s.rxIdx.toNat + answers.length = rxNeed s.opQ) (hs : s.Reading)
    (hq : s.quiet (2 * answers.length) = true) (ha : atLeast answers.length s.rxqAllow = true)
    (hr : s.rxrAnswers = answers ++ rest) : readResponse s = s.answeredAll answers := by
  have hneed2 := rxNeed_le_two s.opQ
  exact times_readNext_of_ready 2 s answers rest (by omega) hneed hs hq ha hr

/-! ### What the reads leave behind -/

theorem answeredAll_keeps {α : Type} {g : State → α} (hg : ∀ s a, g (State.answered s a) = g s)
    (answers : List (Option Byte)) (s : State) : g (s.answeredAll answers) = g s := by
  induction answers generalizing s with
  | nil => rfl
  | cons a answers ih => rw [State.answeredAll, ih, hg]

@[simp] theorem answeredAll_opQ (answers : List (Option Byte)) (s : State) :
    (s.answeredAll answers).opQ = s.opQ := answeredAll_keeps (fun _ _ => rfl) answers s

@[simp] theorem answeredAll_cmdOffers (answers : List (Option Byte)) (s : State) :
    (s.answeredAll answers).cmdOffers = s.cmdOffers := answeredAll_keeps (fun _ _ => rfl) answers s

@[simp] theorem answeredAll_txAllow (answers : List (Option Byte)) (s : State) :
    (s.answeredAll answers).txAllow = s.txAllow := answeredAll_keeps (fun _ _ => rfl) answers s

@[simp] theorem answeredAll_rspAllow (answers : List (Option Byte)) (s : State) :
    (s.answeredAll answers).rspAllow = s.rspAllow := answeredAll_keeps (fun _ _ => rfl) answers s

@[simp] theorem answeredAll_rst (answers : List (Option Byte)) (s : State) :
    (s.answeredAll answers).rst = s.rst.drop (2 * answers.length) := by
  induction answers generalizing s with
  | nil => rfl
  | cons a answers ih =>
    rw [State.answeredAll, ih, answered_rst, List.drop_drop, List.length_cons, Nat.mul_succ,
      Nat.add_comm]

@[simp] theorem answeredAll_rxqAllow (answers : List (Option Byte)) (s : State) :
    (s.answeredAll answers).rxqAllow = spend answers.length s.rxqAllow := by
  induction answers generalizing s with
  | nil => exact (spend_zero _).symm
  | cons a answers ih =>
    rw [State.answeredAll, ih, List.length_cons, Nat.add_comm, ← spend_spend]
    rfl

@[simp] theorem answeredAll_rxrAnswers (answers : List (Option Byte)) (s : State) :
    (s.answeredAll answers).rxrAnswers = s.rxrAnswers.drop answers.length := by
  induction answers generalizing s with
  | nil => rfl
  | cons a answers ih =>
    rw [State.answeredAll, ih, List.length_cons, ← List.drop_tail]
    rfl

@[simp] theorem readEvents_cons (a : Option Byte) (answers : List (Option Byte)) :
    readEvents (a :: answers) = [.readRequest, .readAnswer a] ++ readEvents answers := rfl

@[simp] theorem answeredAll_trace (answers : List (Option Byte)) (s : State) :
    (s.answeredAll answers).trace = s.trace ++ readEvents answers := by
  induction answers generalizing s with
  | nil => exact (List.append_nil _).symm
  | cons a answers ih =>
    rw [State.answeredAll, ih, readEvents_cons]
    simp [State.answered]

theorem answeredAll_phase (answers : List (Option Byte)) (s : State) (hs : s.Reading)
    (hneed : s.rxIdx.toNat + answers.length = rxNeed s.opQ) :
    (s.answeredAll answers).phase = .done := by
  induction answers generalizing s with
  | nil => exact hs.trans (if_pos hneed)
  | cons a answers ih =>
    have hneed2 := rxNeed_le_two s.opQ
    rw [List.length_cons] at hneed
    have hx : s.rxIdx.toNat < 2 := by omega
    refine ih _ (reading_answered hx a) ?_
    rw [answered_rxIdx hx, Nat.add_assoc, Nat.add_comm 1]
    exact hneed

/-- The record offered after the reads of a response is that of `Exec` (42_command_sequencer R131,
R132). -/
theorem rspRecord_answeredAll {answers rest : List (Option Byte)} (hx : s.rxIdx = 0)
    (hto : s.rxTo = 0) (hneed : answers.length = rxNeed s.opQ) (id : Byte) (arg : Half) :
    (s.answeredAll answers).rspRecord
      = (bigStep Config.sentinelByte s.opQ id arg (answers ++ rest)).result := by
  unfold rxNeed at hneed
  unfold State.rspRecord bigStep
  rw [answeredAll_opQ]
  match hcls : responseClass s.opQ with
  | .none => rfl
  | .illegal => rfl
  | .status =>
    rw [hcls] at hneed
    obtain ⟨a, rfl⟩ := List.length_eq_one_iff.mp hneed
    simp [State.answeredAll, State.answered, hx, hto, decodeStatus]
  | .variable =>
    rw [hcls] at hneed
    obtain ⟨a0, a1, rfl⟩ := List.length_eq_two.mp hneed
    simp [State.answeredAll, State.answered, hx, hto, decodeVariable]

/-! ### A whole command (42_command_sequencer R132) -/

theorem sending_accepted (op : Op) (id : Byte) (arg : Half) :
    (s.accepted op id arg).Sending (txLen op) := by
  rw [State.Sending, State.accepted_phase, State.accepted_txIdx, State.accepted_opQ]
  revert op; decide

theorem reading_frameSent (hx : s.rxIdx = 0) (f : List Byte) : (s.frameSent f).Reading := by
  have hx0 : (s.frameSent f).rxIdx.toNat = 0 := by rw [State.frameSent, hx]; rfl
  rw [State.Reading, hx0]
  simp only [eq_comm (a := 0)]
  rfl

/-- The state of a command before its result is delivered. -/
def State.commandRead (s : State) (op : Op) (id : Byte) (arg : Half)
    (answers : List (Option Byte)) : State :=
  ((s.rstRead.accepted op id arg).frameSent (frameOf op id arg)).answeredAll answers

theorem commandRead_rst (op : Op) (id : Byte) (arg : Half) (answers : List (Option Byte)) :
    (s.commandRead op id arg answers).rst = s.rst.drop (txLen op + 2 * answers.length + 1) := by
  have hsent : ((s.rstRead.accepted op id arg).frameSent (frameOf op id arg)).rst
      = s.rst.tail.drop (txLen op) := frameOf_length op id arg ▸ rfl
  rw [State.commandRead, answeredAll_rst, hsent, List.drop_drop, List.drop_tail]

theorem commandRead_phase {op : Op} {answers : List (Option Byte)}
    (hneed : answers.length = rxNeed op) (id : Byte) (arg : Half) :
    (s.commandRead op id arg answers).phase = .done :=
  answeredAll_phase _ _ (reading_frameSent rfl _) ((Nat.zero_add _).trans hneed)

theorem commandRead_trace (op : Op) (id : Byte) (arg : Half) (answers : List (Option Byte)) :
    (s.commandRead op id arg answers).trace
      = s.trace ++ (.cmd (cmdWord op id arg) :: (frameOf op id arg).map .tx
        ++ readEvents answers) := by
  rw [State.commandRead, answeredAll_trace]
  simp [State.frameSent]

/-- A command that nothing holds up is its ACCEPT, its frame, its reads and its DELIVER, one after
the other. -/
theorem runCommand_of_ready {op : Op} {answers rest : List (Option Byte)}
    (hready : s.readyFor (txLen op + 2 * rxNeed op + 2) (txLen op) (rxNeed op) = true)
    (hneed : answers.length = rxNeed op) (hr : s.rxrAnswers = answers ++ rest) (id : Byte)
    (arg : Half) :
    runCommand op id arg s = (s.commandRead op id arg answers).rstRead.delivered := by
  obtain ⟨hp, hq, htx, hrx, hrsp⟩ := readyFor_iff.mp hready
  have hlen := frameOf_length op id arg
  have haccept : opportunity (accept op id arg) s = s.rstRead.accepted op id arg :=
    (opportunity_of_no_reset (headD_of_quiet hq (by omega)) _).trans (if_pos hp)
  have hsend : sendFrame (frameOf op id arg) (s.rstRead.accepted op id arg)
      = (s.rstRead.accepted op id arg).frameSent (frameOf op id arg) := by
    refine sendFrame_of_ready (hlen ▸ txLen_le_four op) (Nat.zero_le _)
      (hlen ▸ sending_accepted op id arg) ?_ ?_ <;> rw [hlen]
    · exact quiet_of_rst_drop (m := 1) hq List.drop_one.symm (by simp; omega)
    · exact htx
  have hread : readResponse ((s.rstRead.accepted op id arg).frameSent (frameOf op id arg))
      = s.commandRead op id arg answers := by
    refine readResponse_of_ready ((Nat.zero_add _).trans hneed) (reading_frameSent rfl _) ?_ ?_ hr
    · refine quiet_of_rst_drop (m := txLen op + 1) hq ?_ (by omega)
      exact commandRead_rst (answers := []) op id arg
    · exact hneed ▸ hrx
  have hquiet : (s.commandRead op id arg answers).quiet 1 = true :=
    quiet_of_rst_drop hq (commandRead_rst op id arg answers) (by omega)
  have hrsp' : (s.commandRead op id arg answers).rspReady = true := by
    rw [State.rspReady, State.commandRead, answeredAll_rspAllow]
    exact hrsp
  rw [runCommand_of_idle op id arg hp, haccept, hsend, hread,
    deliverResult_of_ready (commandRead_phase hneed id arg) (headD_of_quiet hquiet (by omega))
      hrsp']

/-- What the whole operation of command word `cw` leaves of `s`, its inputs and its record. -/
structure CommandCompletes (cw : CmdWord) (s t : State) : Prop where
  phase : t.phase = .idle
  rst : t.rst = s.rst.drop (txLen (cmdOp cw) + 2 * rxNeed (cmdOp cw) + 2)
  cmdOffers : t.cmdOffers = s.cmdOffers.tail
  txAllow : t.txAllow = spend (txLen (cmdOp cw)) s.txAllow
  rxqAllow : t.rxqAllow = spend (rxNeed (cmdOp cw)) s.rxqAllow
  rxrAnswers : t.rxrAnswers = s.rxrAnswers.drop (rxNeed (cmdOp cw))
  rspAllow : t.rspAllow = spend 1 s.rspAllow
  trace : t.trace = s.trace
    ++ commandTrace Config.sentinelByte (cmdOp cw) (cmdId cw) (cmdArg cw) s.rxrAnswers

/-- From IDLE, with the link and the host taking part and no reset, one step does the whole
operation of the command offered. -/
theorem step_of_ready {cw : CmdWord} {rest : List CmdWord}
    (hready : s.readyFor (txLen (cmdOp cw) + 2 * rxNeed (cmdOp cw) + 2) (txLen (cmdOp cw))
      (rxNeed (cmdOp cw)) = true)
    (hc : s.cmdOffers = cw :: rest) (hr : rxNeed (cmdOp cw) ≤ s.rxrAnswers.length) :
    ∃ t, step s = .next t ∧ CommandCompletes cw s t := by
  obtain ⟨hp, -⟩ := readyFor_iff.mp hready
  have hneed : (s.rxrAnswers.take (rxNeed (cmdOp cw))).length = rxNeed (cmdOp cw) :=
    List.length_take_of_le hr
  have hsplit := (List.take_append_drop (rxNeed (cmdOp cw)) s.rxrAnswers).symm
  have hrec : (s.commandRead (cmdOp cw) (cmdId cw) (cmdArg cw)
      (s.rxrAnswers.take (rxNeed (cmdOp cw)))).rspRecord
      = (bigStep Config.sentinelByte (cmdOp cw) (cmdId cw) (cmdArg cw) s.rxrAnswers).result := by
    conv_rhs => rw [hsplit]
    exact rspRecord_answeredAll rfl rfl hneed _ _
  refine ⟨_, (step_of_idle_offer hp hc).trans
    (congrArg _ (runCommand_of_ready hready hneed hsplit _ _)), ?_⟩
  constructor
  case phase => rfl
  case trace =>
    rw [State.delivered_trace, State.rstRead_trace, commandRead_trace, commandTrace, ← hrec,
      List.append_assoc]
    rfl
  case rst =>
    rw [State.delivered_rst, State.rstRead_rst, commandRead_rst, hneed, List.tail_drop]
  all_goals
    simp [State.commandRead, State.frameSent, hneed, frameOf_length]

/-- Settles O53: the step of a ready block is the whole operation of the command offered. -/
theorem stepAgreesWithBigStep : Obligations.StepAgreesWithBigStep := by
  intro s cw rest op run hready hc hr
  obtain ⟨t, ht, h⟩ := step_of_ready hready hc hr
  have hoffers : t.cmdOffers = rest := by rw [h.cmdOffers, hc, List.tail_cons]
  have htrace := h.trace
  rw [commandTrace, cmdWord_fields] at htrace
  exact ⟨t, _, ht, h.phase, hoffers, h.rxrAnswers, htrace, rfl⟩

/-! ### Any number of commands (70_reset_and_hazards R190) -/

theorem txStream_append (l m : List Event) : txStream (l ++ m) = txStream l ++ txStream m :=
  List.filterMap_append

theorem resultStream_append (l m : List Event) :
    resultStream (l ++ m) = resultStream l ++ resultStream m := List.filterMap_append

theorem readCount_append (l m : List Event) : readCount (l ++ m) = readCount l + readCount m :=
  List.countP_append

/-- The TX transfers of a frame are its bytes, and nothing else. -/
theorem streams_of_frame (f : List Byte) : txStream (f.map .tx) = f ∧ readCount (f.map .tx) = 0
    ∧ resultStream (f.map .tx) = [] := by
  induction f with
  | nil => exact ⟨rfl, rfl, rfl⟩
  | cons b f ih =>
    obtain ⟨htx, hcount, hres⟩ := ih
    exact ⟨congrArg (b :: ·) htx, hcount, hres⟩

theorem streams_of_reads (answers : List (Option Byte)) : txStream (readEvents answers) = []
    ∧ readCount (readEvents answers) = answers.length ∧ resultStream (readEvents answers) = [] := by
  induction answers with
  | nil => exact ⟨rfl, rfl, rfl⟩
  | cons a answers ih =>
    obtain ⟨htx, hcount, hres⟩ := ih
    rw [readEvents_cons, txStream_append, readCount_append, resultStream_append, htx, hcount, hres,
      List.length_cons, Nat.add_comm]
    exact ⟨rfl, rfl, rfl⟩

/-- The streams of one command: its frame, its reads and its result (42_command_sequencer R132). -/
theorem streams_of_commandTrace (sentinel : Byte) {op : Op} (id : Byte) (arg : Half)
    {answers : List (Option Byte)} (hneed : rxNeed op ≤ answers.length) :
    txStream (commandTrace sentinel op id arg answers) = frameOf op id arg
      ∧ readCount (commandTrace sentinel op id arg answers) = rxNeed op
      ∧ resultStream (commandTrace sentinel op id arg answers)
        = [(bigStep sentinel op id arg answers).result] := by
  obtain ⟨htx, hcount, hres⟩ := streams_of_frame (frameOf op id arg)
  obtain ⟨htx', hcount', hres'⟩ := streams_of_reads (answers.take (rxNeed op))
  rw [List.length_take_of_le hneed] at hcount'
  rw [commandTrace, ← List.singleton_append]
  simp only [txStream_append, readCount_append, resultStream_append, htx, hcount, hres, htx',
    hcount', hres']
  refine ⟨List.append_nil _ |>.trans (List.append_nil _), ?_, rfl⟩
  exact (congrArg (· + rxNeed op) (Nat.zero_add 0)).trans (Nat.zero_add _)

theorem core_run_succ {M : Host.Core} {k : Nat} {s t : M.State} (h : M.step s = .next t) :
    M.run (k + 1) s = M.run k t := by
  rw [Host.Core.run, h]

theorem run_succ_of_step {k : Nat} (h : step s = .next t) :
    Host.Core.run Sys2Proof.core (k + 1) s = Host.Core.run Sys2Proof.core k t := by
  exact core_run_succ (M := Sys2Proof.core) h

/-- Commands that nothing holds up are done one a step, in order (70_reset_and_hazards R190). -/
theorem run_of_unhindered_commands (cws : List CmdWord) (s : State) (hc : s.cmdOffers = cws)
    (hp : s.phase = .idle) (hrst : s.rst = []) (htx : s.txAllow = none) (hrx : s.rxqAllow = none)
    (hrsp : s.rspAllow = none) (hreads : expectedReads cws ≤ s.rxrAnswers.length) :
    ∃ t, Host.Core.run Sys2Proof.core cws.length s = .next t ∧ t.phase = .idle
      ∧ t.cmdOffers = [] ∧ t.rxrAnswers = s.rxrAnswers.drop (expectedReads cws)
      ∧ txStream t.trace = txStream s.trace ++ expectedBytes cws
      ∧ readCount t.trace = readCount s.trace + expectedReads cws
      ∧ resultStream t.trace
        = resultStream s.trace ++ expectedResults Config.sentinelByte cws s.rxrAnswers := by
  induction cws generalizing s with
  | nil => exact ⟨s, rfl, hp, hc, rfl, (List.append_nil _).symm, rfl, (List.append_nil _).symm⟩
  | cons cw cws ih =>
    rw [expectedReads_cons] at hreads
    have hneed : rxNeed (cmdOp cw) ≤ s.rxrAnswers.length := by omega
    have hready : s.readyFor (txLen (cmdOp cw) + 2 * rxNeed (cmdOp cw) + 2) (txLen (cmdOp cw))
        (rxNeed (cmdOp cw)) = true :=
      readyFor_iff.mpr ⟨hp, by simp [State.quiet, hrst], by rw [htx]; rfl, by rw [hrx]; rfl,
        by rw [State.rspReady, hrsp]; rfl⟩
    obtain ⟨u, hu, h⟩ := step_of_ready hready hc hneed
    obtain ⟨t, ht, hphase, hoffers, hanswers, hbytes, hcount, hresults⟩ :=
      ih u (by rw [h.cmdOffers, hc, List.tail_cons]) h.phase (by rw [h.rst, hrst, List.drop_nil])
        (by rw [h.txAllow, htx]; rfl) (by rw [h.rxqAllow, hrx]; rfl)
        (by rw [h.rspAllow, hrsp]; rfl) (by rw [h.rxrAnswers, List.length_drop]; omega)
    obtain ⟨htx1, hcount1, hres1⟩ :=
      streams_of_commandTrace Config.sentinelByte (cmdId cw) (cmdArg cw) hneed
    refine ⟨t, (run_succ_of_step hu).trans ht, hphase, hoffers, ?_, ?_, ?_, ?_⟩
    · rw [hanswers, h.rxrAnswers, List.drop_drop, expectedReads_cons]
    · rw [hbytes, h.trace, txStream_append, htx1, List.append_assoc, expectedBytes_cons]
    · rw [hcount, h.trace, readCount_append, hcount1, Nat.add_assoc, expectedReads_cons]
    · rw [hresults, h.trace, h.rxrAnswers, resultStream_append, hres1, List.append_assoc]
      rfl

/-- Settles O56, by induction on the commands offered. -/
theorem runOfCommands : Obligations.RunOfCommands :=
  fun s hp hrst htx hrx hrsp hreads =>
    run_of_unhindered_commands s.cmdOffers s rfl hp hrst htx hrx hrsp hreads

end Sys2Proof.Machine
end

section
/-! PROOFS. What one response row reads, what a busy step and every step keep, and the decoder's
sum. -/

namespace Sys2Proof.Machine

variable {s t : State}

/-! ### A whole response of two bytes (41_response_decoder R112) -/

/-- Settles O36: two reads, of which only the first can find its request outstanding. -/
theorem variableResponseCompletes : Obligations.VariableResponseCompletes := by
  intro low high s hop hx
  have hx2 : s.rxIdx.toNat < 2 := by rw [hx]; decide
  have hexec : exec (.responseVariable low high) s
      = .next (readWith (some high) (readWith (some low) s)) := rfl
  refine ⟨fun hp hq ha => ?_, fun hp hq ha => ?_⟩
  · have hfirst := readWith_of_ready hp hx2 (quiet_of_rst_drop (m := 0) hq rfl (by omega))
      (allows_of_atLeast ha (by omega)) (some low)
    have hsecond : readWith (some high) (s.answered (some low))
        = (s.answered (some low)).answered (some high) := by
      refine readWith_of_ready ?_ ?_ ?_ ?_ _
      · simp [State.answered, hop, hx]
      · simp [State.answered, hx]
      · exact quiet_of_rst_drop (m := 2) hq (answered_rst s _) (by omega)
      · exact allows_of_atLeast (atLeast_spend (m := 1) (n := 1) ha (by omega)) (by omega)
    rw [hexec, hfirst, hsecond]
    simp [State.answered, State.requested, State.received, State.rstRead, hop, hx, tail_tail]
  · have hfirst : readWith (some low) s = s.rstRead.received (some low) := by
      rw [readWith, requestNext_of_not_rxq (by simp [hp]),
        receiveNext_of_ready hp (headD_of_quiet hq (by omega)) hx2]
    have hsecond : readWith (some high) (s.rstRead.received (some low))
        = (s.rstRead.received (some low)).answered (some high) := by
      refine readWith_of_ready ?_ ?_ ?_ ?_ _
      · simp [hop, hx]
      · simp [hx]
      · exact quiet_of_rst_drop (m := 1) hq List.drop_one.symm (by omega)
      · exact allows_of_atLeast ha (by omega)
    rw [hexec, hfirst, hsecond]
    simp [State.answered, State.requested, State.received, State.rstRead, hop, hx, tail_tail]

/-! ### Offers -/

theorem opportunity_cmdOffers {f : State → State} (hf : ∀ s, (f s).cmdOffers = s.cmdOffers)
    (s : State) : (opportunity f s).cmdOffers = s.cmdOffers := by
  rcases opportunity_cases f s with ⟨-, e⟩ | ⟨-, e⟩
  · simp [e]
  · simp [e, hf]

theorem send_cmdOffers (f : List Byte) (s : State) : (send f s).cmdOffers = s.cmdOffers := by
  rcases send_cases f s with ⟨_, -, -, -, e⟩ | ⟨-, e⟩ <;> simp [e]

theorem request_cmdOffers (s : State) : (request s).cmdOffers = s.cmdOffers := by
  rcases request_cases s with ⟨-, -, e⟩ | ⟨-, e⟩ <;> simp [e]

theorem receive_cmdOffers (a : Option Byte) (s : State) :
    (receive a s).cmdOffers = s.cmdOffers := by
  rcases receive_cases a s with ⟨-, -, e⟩ | ⟨-, e⟩ <;> simp [e]

theorem deliver_cmdOffers (s : State) : (deliver s).cmdOffers = s.cmdOffers := by
  rcases deliver_cases s with ⟨-, -, e⟩ | ⟨-, e⟩ <;> simp [e]

theorem sendFrame_cmdOffers (f : List Byte) (s : State) :
    (sendFrame f s).cmdOffers = s.cmdOffers :=
  sendFrame_keeps (P := fun u => u.cmdOffers = s.cmdOffers) f
    (fun u _ h => (opportunity_cmdOffers (send_cmdOffers f) u).trans h) rfl

theorem requestNext_cmdOffers (s : State) : (requestNext s).cmdOffers = s.cmdOffers := by
  unfold requestNext
  split
  · exact opportunity_cmdOffers request_cmdOffers s
  · rfl

theorem receiveNext_cmdOffers (a : Option Byte) (s : State) :
    (receiveNext a s).cmdOffers = s.cmdOffers := by
  unfold receiveNext
  split
  · exact opportunity_cmdOffers (receive_cmdOffers a) s
  · rfl

theorem readBytes_cmdOffers (bytes : List Byte) (s : State) :
    (readBytes bytes s).cmdOffers = s.cmdOffers := by
  induction bytes generalizing s with
  | nil => rfl
  | cons b bytes ih =>
    rw [readBytes_cons, ih, readWith, receiveNext_cmdOffers, requestNext_cmdOffers]

theorem readResponse_cmdOffers (s : State) : (readResponse s).cmdOffers = s.cmdOffers :=
  readResponse_keeps (P := fun u => u.cmdOffers = s.cmdOffers)
    (fun u _ h => (opportunity_cmdOffers request_cmdOffers u).trans h)
    (fun u a _ _ h => (opportunity_cmdOffers (receive_cmdOffers a) u).trans h)
    (fun u _ _ h => (opportunity_cmdOffers (fun _ => rfl) u).trans h) rfl

theorem deliverResult_cmdOffers (s : State) : (deliverResult s).cmdOffers = s.cmdOffers := by
  unfold deliverResult
  split
  · exact opportunity_cmdOffers deliver_cmdOffers s
  · rfl

theorem cmdOffers_of_step_of_reading (hp : s.phase = .rxq ∨ s.phase = .rxr)
    (hs : step s = .next t) : t.cmdOffers = s.cmdOffers := by
  rcases step_of_reading hp with ⟨b, bs, e⟩ | e <;> cases e.symm.trans hs
  · exact readBytes_cmdOffers (b :: bs) s
  · exact readResponse_cmdOffers s

/-- Settles O43: of the five transfers only ACCEPT takes an offer, and a busy step has none. -/
theorem busyStepTakesNoCommand : Obligations.BusyStepTakesNoCommand := by
  intro s t hbusy hs
  cases hp : s.phase with
  | idle => exact absurd hp hbusy
  | tx =>
    rcases Nat.lt_or_ge 4 s.opQ.toNat with hop | hop
    · cases (step_of_reserved_tx hp hop).symm.trans hs
    · cases (step_of_tx hp hop).symm.trans hs
      exact sendFrame_cmdOffers _ s
  | rxq => exact cmdOffers_of_step_of_reading (.inl hp) hs
  | rxr => exact cmdOffers_of_step_of_reading (.inr hp) hs
  | done =>
    cases (step_of_done hp).symm.trans hs
    exact deliverResult_cmdOffers s

/-! ### The record -/

theorem grown_by_event {past l : List Event} (h : ∃ events, l = past ++ events) (e : Event) :
    ∃ events, l ++ [e] = past ++ events := by
  obtain ⟨events, rfl⟩ := h
  exact ⟨events ++ [e], List.append_assoc ..⟩

/-- Each transfer writes its own event after the record so far. -/
theorem transfersKeep_past (past : List Event) :
    TransfersKeep fun s => ∃ events, s.trace = past ++ events where
  rstRead _ h := h
  resetDone _ h := grown_by_event h _
  accepted _ _ _ _ _ h := grown_by_event h _
  sent _ _ _ _ h := grown_by_event h _
  requested _ _ h := grown_by_event h _
  received _ _ _ _ h := grown_by_event h _
  delivered _ _ h := grown_by_event h _

/-- Settles O51: every transfer keeps the record so far as the beginning of its record. -/
theorem traceOnlyGrows : Obligations.TraceOnlyGrows := fun s _ hs =>
  (transfersKeep_past s.trace).step_keeps ⟨[], (List.append_nil _).symm⟩ hs

/-! ### The decoder's sum (41_response_decoder R115) -/

theorem toNat_assemble (b0 b1 : Byte) : (assemble b0 b1).toNat = b0.toNat + 256 * b1.toNat := by
  unfold assemble
  bv_omega

theorem assemble_eq_append (b0 b1 : Byte) : assemble b0 b1 = b1 ++ b0 := by
  apply BitVec.eq_of_toNat_eq
  rw [toNat_assemble, BitVec.toNat_append, ← Nat.shiftLeft_add_eq_or_of_lt b0.isLt,
    Nat.shiftLeft_eq]
  omega

/-- Settles O15. -/
theorem assembledValue : Obligations.AssembledValue := by
  intro b0 b1
  have h0 := b0.isLt
  have h1 := b1.isLt
  have hwiden : (b0.setWidth 16 : Half).toNat = b0.toNat := by
    rw [BitVec.toNat_setWidth]
    omega
  exact ⟨toNat_assemble b0 b1, assemble_eq_append b0 b1, by omega, by omega, by omega, hwiden,
    by omega⟩

end Sys2Proof.Machine
end

section
/-! PROOFS. The two directions of the round trip between bytes and rows, and the command word as the
sum of its fields (30_encoding R61 to R77). -/

namespace Sys2Proof

/-! ### The two directions of the round trip (30_encoding R61, R63, R70, R76) -/

/-- A command row is encoded as the word of its selector and fields (30_encoding R61). -/
theorem encode_of_commandFields {i : Instr} {op : Op} {id : Byte} {arg : Half}
    (h : commandFields i = some (op, id, arg)) : encode i = (.commandWord, cmdBytes op id arg) := by
  cases i <;> cases h <;> rfl

/-- Settles O1: each space has its own decoder, and each decoder undoes the encoder. -/
theorem decodeOfEncode : Obligations.DecodeOfEncode := by
  intro i hw
  rcases encode_space_cases i with ⟨f, hi⟩ | ⟨bytes, hi⟩ | ⟨op, id, arg, hi⟩
  · rw [hi]
    exact decodeFrame_ok_iff.mpr hi
  · rw [hi]
    exact decodeResponse_ok_iff.mpr hi
  · rw [encode_of_commandFields hi]
    exact (decodeCommandBytes_bytesOfWord _).trans (congrArg _ (decodeCommand_cmdWord hw hi))

theorem wordOfBytes_lt (bytes : List Byte) : wordOfBytes bytes < 256 ^ bytes.length := by
  induction bytes with
  | nil => decide
  | cons b bytes ih =>
    have hb := b.isLt
    rw [wordOfBytes, List.length_cons, Nat.pow_succ']
    omega

/-- Bytes are those of the word they make (30_encoding R75). -/
theorem bytesOfWord_wordOfBytes (bytes : List Byte) :
    bytesOfWord bytes.length (wordOfBytes bytes) = bytes := by
  induction bytes with
  | nil => rfl
  | cons b bytes ih =>
    have hb := b.isLt
    have hlow : BitVec.ofNat 8 (b.toNat + 256 * wordOfBytes bytes) = b := by
      apply BitVec.eq_of_toNat_eq
      rw [BitVec.toNat_ofNat]
      omega
    have hrest : (b.toNat + 256 * wordOfBytes bytes) / 256 = wordOfBytes bytes := by omega
    rw [List.length_cons, wordOfBytes, bytesOfWord, hlow, hrest, ih]

/-- Bytes decode to a command exactly when they are the four bytes of a word that names it
(log 14). -/
theorem decodeCommandBytes_ok_iff {bytes : List Byte} {i : Instr} :
    decodeCommandBytes bytes = .ok i
      ↔ ∃ cw : CmdWord, bytes = bytesOfWord 4 cw.toNat ∧ decodeCommand cw = i := by
  constructor
  · unfold decodeCommandBytes
    intro h
    split_ifs at h with _ hlen hword
    refine ⟨BitVec.ofNat 27 (wordOfBytes bytes), ?_, Except.ok.inj h⟩
    rw [BitVec.toNat_ofNat, Nat.mod_eq_of_lt hword, ← not_ne_iff.mp hlen,
      bytesOfWord_wordOfBytes]
  · rintro ⟨cw, rfl, rfl⟩
    exact decodeCommandBytes_bytesOfWord cw

theorem wellFormed_decodeSetLimit (id : Byte) (value : Half) :
    (decodeSetLimit id value).wellFormed = true := by
  unfold decodeSetLimit
  split_ifs <;> simp_all [Instr.wellFormed, isPseudoLimitId]

/-- A word names a command canonically (30_encoding R74; log 8). -/
theorem wellFormed_decodeCommand (cw : CmdWord) : (decodeCommand cw).wellFormed = true := by
  unfold decodeCommand
  generalize cmdOp cw = op
  match op with
  | 0#3 | 1#3 | 3#3 | 4#3 | 5#3 | 6#3 | 7#3 => rfl
  | 2#3 => exact wellFormed_decodeSetLimit _ _

theorem encode_decodeCommand (cw : CmdWord) :
    encode (decodeCommand cw) = (.commandWord, bytesOfWord 4 cw.toNat) := by
  rw [encode_of_commandFields (commandFields_decodeCommand cw), cmdBytes, cmdWord_fields]

/-- Only a command row can be named otherwise than by its own word (log 8). -/
theorem wellFormed_of_encode_wire {i : Instr} (h : (encode i).1 ≠ .commandWord) :
    i.wellFormed = true := by
  cases i with
  | setLimit => exact absurd rfl h
  | _ => rfl

/-- Settles O2: what a decoder accepts in its space is an encoding, of a canonical name. -/
theorem encodeOfDecode : Obligations.EncodeOfDecode := by
  intro space bytes i h
  cases space with
  | frame =>
    have hi := decodeFrame_ok_iff.mp h
    exact ⟨hi, wellFormed_of_encode_wire (by simp [hi])⟩
  | response =>
    have hi := decodeResponse_ok_iff.mp h
    exact ⟨hi, wellFormed_of_encode_wire (by simp [hi])⟩
  | commandWord =>
    obtain ⟨cw, rfl, rfl⟩ := decodeCommandBytes_ok_iff.mp h
    exact ⟨encode_decodeCommand cw, wellFormed_decodeCommand cw⟩

/-! ### Lengths, written-out words, and the fields of a command word -/

/-- Settles O3: the bytes are the encoding of a frame row, and each frame row has its opcode and its
length. -/
theorem frameLengthByOpcode : Obligations.FrameLengthByOpcode := by
  intro opcode payload i h
  have hi : encode i = (.frame, opcode :: payload) := decodeFrame_ok_iff.mp h
  cases i <;> cases hi <;> simp

/-- Settles O4: the words are literals, and the decoder is evaluated on each. -/
theorem writtenOutWordsDecode : Obligations.WrittenOutWordsDecode := by
  refine ⟨?_, ?_, ?_, ?_, ?_, ?_, ?_⟩ <;> decide

/-- The word of an append, as a sum. -/
theorem toNat_append_eq_add {m n : Nat} (x : BitVec m) (y : BitVec n) :
    (x ++ y).toNat = x.toNat * 2 ^ n + y.toNat := by
  rw [BitVec.toNat_append, ← Nat.shiftLeft_add_eq_or_of_lt y.isLt, Nat.shiftLeft_eq]

theorem toNat_cmdWord (op : Op) (id : Byte) (arg : Half) :
    (cmdWord op id arg).toNat = op.toNat * 2 ^ 24 + id.toNat * 2 ^ 16 + arg.toNat := by
  rw [cmdWord, toNat_append_eq_add, toNat_append_eq_add]
  omega

/-- Settles O5: the sum, and the earlier reading back of the fields. -/
theorem commandWordFields : Obligations.CommandWordFields :=
  ⟨fun op id arg => ⟨toNat_cmdWord op id arg, cmdOp_cmdWord op id arg, cmdId_cmdWord op id arg,
    cmdArg_cmdWord op id arg⟩, cmdWord_fields⟩

end Sys2Proof
end

section
/-! PROOFS. The result record's word, and what the frame of each command reads back as (30_encoding
R69, R76). -/

namespace Sys2Proof.Machine

/-! ### The result record's word (30_encoding R69) -/

theorem toNat_resultWord (r : Result) :
    (resultWord r).toNat
      = (kindCode r.kind).toNat * 2 ^ 18 + r.absent.toNat * 2 ^ 16 + r.data.toNat := by
  rw [resultWord, toNat_append_eq_add, toNat_append_eq_add]
  omega

theorem kindCode_injective : Function.Injective kindCode := by
  intro k k' h
  cases k <;> cases k' <;> cases h <;> rfl

/-- Records with one word are equal: each field has its own bits. -/
theorem resultWord_injective : Function.Injective resultWord := by
  rintro ⟨kind, absent, data⟩ ⟨kind', absent', data'⟩ h
  have hsum := congrArg BitVec.toNat h
  simp only [toNat_resultWord] at hsum
  have ha := absent.isLt
  have ha' := absent'.isLt
  have hd := data.isLt
  have hd' := data'.isLt
  have hkind : kind = kind' := kindCode_injective (BitVec.eq_of_toNat_eq (by omega))
  have habsent : absent = absent' := BitVec.eq_of_toNat_eq (by omega)
  have hdata : data = data' := BitVec.eq_of_toNat_eq (by omega)
  rw [hkind, habsent, hdata]

/-- Settles O6. -/
theorem resultWordFields : Obligations.ResultWordFields := by
  intro r
  refine ⟨?_, fun _ h => resultWord_injective h⟩
  rw [toNat_resultWord]
  cases r.kind <;> rfl

/-! ### The fields of an operand, put together again (30_encoding R66, R67, R76) -/

theorem decodeMagnitude_setWidth (a : BitVec 5) (b : BitVec 7) :
    decodeMagnitude (a.setWidth 8) (b.setWidth 8) = a.toNat + 32 * b.toNat := by
  rw [decodeMagnitude, BitVec.toNat_setWidth_of_le (by omega), BitVec.toNat_setWidth_of_le (by omega)]

theorem decodeLimit_setWidth (a : BitVec 7) (b : BitVec 5) :
    decodeLimit (a.setWidth 8) (b.setWidth 8) = a.toNat + 128 * b.toNat := by
  rw [decodeLimit, BitVec.toNat_setWidth_of_le (by omega), BitVec.toNat_setWidth_of_le (by omega)]

theorem speedFields_sum (m : Half) :
    (m.setWidth 5).toNat + 32 * ((m >>> 5).setWidth 7).toNat = m.toNat % 4096 := by
  simp only [BitVec.toNat_setWidth, BitVec.toNat_ushiftRight, Nat.shiftRight_eq_div_pow]
  omega

theorem limitFields_sum (v : Half) :
    (v.setWidth 7).toNat + 128 * ((v >>> 7).setWidth 5).toNat = v.toNat % 4096 := by
  simp only [BitVec.toNat_setWidth, BitVec.toNat_ushiftRight, Nat.shiftRight_eq_div_pow]
  omega

theorem msb_iff_toInt_neg (arg : Half) : arg.msb = true ↔ arg.toInt < 0 := by
  rw [BitVec.msb_eq_toInt, decide_eq_true_eq]

/-- The magnitude of a speed in two's complement (40_command_encoder R101). -/
theorem toNat_mag (arg : Half) : (mag arg).toNat = arg.toInt.natAbs := by
  have hlt := arg.isLt
  rw [BitVec.toInt_eq_msb_cond, mag]
  split
  · next hneg =>
    have hge := BitVec.msb_eq_true_iff_two_mul_ge.mp hneg
    rw [BitVec.toNat_ofNat]
    omega
  · rfl

/-! ### What the frame of a command reads back as (30_encoding R76) -/

/-- The frame row of a speed, forward or reverse by its sign. -/
def speedRow (arg : Half) : Instr :=
  if arg.msb then .frameSetSpeedReverse ((mag arg).setWidth 5) ((mag arg >>> 5).setWidth 7)
  else .frameSetSpeedForward ((mag arg).setWidth 5) ((mag arg >>> 5).setWidth 7)

theorem decodeFrame_motorSpeed (id : Byte) (arg : Half) :
    decodeFrame (frameOf 1#3 id arg) = .ok (speedRow arg) := by
  rw [decodeFrame_ok_iff, frameOf_motorSpeed, low5_eq_setWidth, high7_eq_setWidth, speedOpcode,
    speedRow]
  split <;> rfl

theorem decodeFrame_limit (id : Byte) (value : Half) :
    decodeFrame (frameOf 2#3 id value)
      = .ok (.frameSetLimit id (value.setWidth 7) ((value >>> 7).setWidth 5)) := by
  rw [decodeFrame_ok_iff, frameOf_limit, low7_eq_setWidth, high5_eq_setWidth]
  rfl

theorem readFrame_of_decodeFrame {f : List Byte} {i : Instr} (h : decodeFrame f = .ok i) :
    readFrame f = commandOfRow i := by
  rw [readFrame, h]

/-- A speed reads back with its sign and its magnitude modulo 4096 (40_command_encoder R99). -/
theorem readFrame_motorSpeed (id : Byte) (arg : Half) :
    readFrame (frameOf 1#3 id arg)
      = some (.setMotorSpeed (if arg.toInt < 0 then -(arg.toInt.natAbs % 4096 : Nat)
          else (arg.toInt.natAbs % 4096 : Nat))) := by
  rw [readFrame_of_decodeFrame (decodeFrame_motorSpeed id arg), speedRow, ← toNat_mag,
    ← speedFields_sum, ← decodeMagnitude_setWidth]
  simp only [← msb_iff_toInt_neg]
  split <;> rfl

/-- A limit reads back with its identifier and its value modulo 4096 (40_command_encoder R99). -/
theorem readFrame_limit (id : Byte) (value : Half) :
    readFrame (frameOf 2#3 id value) = some (.setLimit id (value.toNat % 4096)) := by
  rw [readFrame_of_decodeFrame (decodeFrame_limit id value), ← limitFields_sum,
    ← decodeLimit_setWidth]
  rfl

theorem readFrame_motorSpeed_iff (id : Byte) (arg : Half) :
    readFrame (frameOf 1#3 id arg) = some (.setMotorSpeed arg.toInt) ↔ arg.toInt.natAbs < 4096 := by
  rw [readFrame_motorSpeed, Option.some.injEq, ProtocolCommand.setMotorSpeed.injEq]
  split <;> omega

theorem readFrame_limit_iff (id : Byte) (value : Half) :
    readFrame (frameOf 2#3 id value) = some (.setLimit id value.toNat) ↔ value.toNat < 4096 := by
  rw [readFrame_limit, Option.some.injEq, ProtocolCommand.setLimit.injEq]
  simp only [true_and]
  omega

theorem inDomain_motorSpeed_iff (arg : Half) : inDomain 1#3 arg = true ↔ arg.toInt.natAbs ≤ 3200 :=
  decide_eq_true_iff

theorem inDomain_limit_iff (arg : Half) : inDomain 2#3 arg = true ↔ arg.toNat ≤ 4095 :=
  decide_eq_true_iff

/-- A command with its operands in the domain reads back from its own frame (30_encoding R76). -/
theorem readFrame_frameOf {op : Op} {arg : Half} (hop : op.toNat ≤ 4)
    (hd : inDomain op arg = true) (id : Byte) :
    readFrame (frameOf op id arg) = commandOf op id arg := by
  rcases op_cases_of_le_four hop with rfl | rfl | rfl | rfl | rfl
  · rfl
  · have hlt : arg.toInt.natAbs < 4096 := by
      have := (inDomain_motorSpeed_iff arg).mp hd
      omega
    exact (readFrame_motorSpeed_iff id arg).mpr hlt
  · have hlt : arg.toNat < 4096 := by
      have := (inDomain_limit_iff arg).mp hd
      omega
    exact (readFrame_limit_iff id arg).mpr hlt
  · rfl
  · rfl

theorem readFrame_reverse_zero : readFrame [0x86, 0, 0] = some (.setMotorSpeed 0) := by decide

/-- A reverse frame is that of a negative speed (40_command_encoder R92). -/
theorem speed_neg_of_reverse_frame {op : Op} {id : Byte} {arg : Half} {payload : List Byte}
    (h : frameOf op id arg = 0x86 :: payload) : op = 1#3 ∧ arg.toInt < 0 := by
  rcases Nat.lt_or_ge 4 op.toNat with hop | hop
  · rw [frameOf_of_reserved hop] at h
    cases h
  · rcases op_cases_of_le_four hop with rfl | rfl | rfl | rfl | rfl <;>
      have hopcode := List.head_eq_of_cons_eq h
    case inr.inr.inl =>
      rw [← msb_iff_toInt_neg]
      refine ⟨rfl, by_contra fun hsign => ?_⟩
      rw [speedOpcode, if_neg hsign] at hopcode
      cases hopcode
    all_goals cases hopcode

/-- In the domain a negative speed reads back, and not as 0. -/
theorem frameOf_ne_reverse_zero {op : Op} {arg : Half} (hd : inDomain op arg = true) (id : Byte) :
    frameOf op id arg ≠ [0x86, 0, 0] := by
  intro h
  obtain ⟨rfl, hneg⟩ := speed_neg_of_reverse_frame h
  have hread := readFrame_frameOf (by decide) hd id
  rw [h, readFrame_reverse_zero, commandOf_motorSpeed, Option.some.injEq,
    ProtocolCommand.setMotorSpeed.injEq] at hread
  omega

/-- Settles O9. -/
theorem readFrameInvertsTheEncoder : Obligations.ReadFrameInvertsTheEncoder :=
  ⟨fun _ id _ hop hd => readFrame_frameOf hop hd id, readFrame_motorSpeed_iff, readFrame_limit_iff,
    readFrame_reverse_zero, fun _ id _ hd => frameOf_ne_reverse_zero hd id⟩

/-- Settles O7. -/
theorem frameReadsBack : Obligations.FrameReadsBack := by
  refine ⟨fun id arg => ⟨rfl, rfl, rfl⟩, fun z id hlo hhi => ?_, fun id value hle => ?_⟩
  · have hz : (BitVec.ofInt 16 z).toInt = z :=
      BitVec.toInt_ofInt_eq_self (by omega) (by omega) (by omega)
    refine ⟨(mag (BitVec.ofInt 16 z)).setWidth 5, (mag (BitVec.ofInt 16 z) >>> 5).setWidth 7, ?_, ?_⟩
    · refine (decodeFrame_motorSpeed id _).trans ?_
      simp only [speedRow, msb_iff_toInt_neg, hz, ← Int.not_lt, ite_not]
    · rw [speedFields_sum, toNat_mag, hz]
      omega
  · refine ⟨_, _, decodeFrame_limit id value, ?_⟩
    rw [limitFields_sum]
    omega

/-! ### The table of the inverse map (30_encoding R76) -/

theorem commandOfRow_speedForward (a : BitVec 5) (b : BitVec 7) :
    commandOfRow (.frameSetSpeedForward a b)
      = some (.setMotorSpeed ((a.setWidth 8 : Byte).toNat + 32 * (b.setWidth 8 : Byte).toNat)) := rfl

theorem commandOfRow_speedReverse (a : BitVec 5) (b : BitVec 7) :
    commandOfRow (.frameSetSpeedReverse a b)
      = some (.setMotorSpeed (-((a.setWidth 8 : Byte).toNat + 32 * (b.setWidth 8 : Byte).toNat))) :=
  rfl

theorem commandOfRow_limit (limitId : Byte) (a : BitVec 7) (b : BitVec 5) :
    commandOfRow (.frameSetLimit limitId a b)
      = some (.setLimit limitId ((a.setWidth 8 : Byte).toNat + 128 * (b.setWidth 8 : Byte).toNat)) :=
  rfl

/-- A byte is within a field's range exactly when it is a field, widened (30_encoding R72). -/
theorem toNat_le_iff_exists_field {width : Nat} (hw : width ≤ 8) (b : Byte) :
    b.toNat ≤ 2 ^ width - 1 ↔ ∃ x : BitVec width, x.setWidth 8 = b := by
  constructor
  · intro h
    have hfit : b.toNat < 2 ^ width := Nat.lt_of_le_sub_one (Nat.two_pow_pos width) h
    exact ⟨_, setWidth_setWidth_of_fitsIn ((fitsIn_iff width b).mpr hfit)⟩
  · rintro ⟨x, rfl⟩
    rw [BitVec.toNat_setWidth_of_le hw]
    exact Nat.le_sub_one_of_lt x.isLt

theorem toNat_le_0x1F_iff (b : Byte) : b.toNat ≤ 0x1F ↔ ∃ x : BitVec 5, x.setWidth 8 = b :=
  toNat_le_iff_exists_field (width := 5) (by decide) b

theorem toNat_le_0x7F_iff (b : Byte) : b.toNat ≤ 0x7F ↔ ∃ x : BitVec 7, x.setWidth 8 = b :=
  toNat_le_iff_exists_field (width := 7) (by decide) b

/-- Settles O8: a frame is the encoding of a frame row, and the payload bytes of a table entry are
the row's fields, widened. -/
theorem readFrameTable : Obligations.ReadFrameTable := by
  intro f c
  simp only [readFrame_eq_some_iff, decodeFrame_ok_iff, toNat_le_0x1F_iff,
    toNat_le_0x7F_iff]
  constructor
  · rintro ⟨i, hi, hc⟩
    cases i with
    | frameExitSafeStart => cases hi; cases hc; exact .inl ⟨rfl, rfl⟩
    | frameDetectBaudRate => cases hi; cases hc; exact .inr (.inl ⟨rfl, rfl⟩)
    | frameGetVariable v => cases hi; cases hc; exact .inr (.inr (.inl ⟨v, rfl, rfl⟩))
    | frameSetSpeedForward a b =>
      rw [commandOfRow_speedForward] at hc
      cases hi; cases hc
      exact .inr (.inr (.inr (.inl ⟨_, _, ⟨a, rfl⟩, ⟨b, rfl⟩, rfl, rfl⟩)))
    | frameSetSpeedReverse a b =>
      rw [commandOfRow_speedReverse] at hc
      cases hi; cases hc
      exact .inr (.inr (.inr (.inr (.inl ⟨_, _, ⟨a, rfl⟩, ⟨b, rfl⟩, rfl, rfl⟩))))
    | frameSetLimit l a b =>
      rw [commandOfRow_limit] at hc
      cases hi; cases hc
      exact .inr (.inr (.inr (.inr (.inr ⟨l, _, _, ⟨a, rfl⟩, ⟨b, rfl⟩, rfl, rfl⟩))))
    | _ => cases hi
  · rintro (⟨rfl, rfl⟩ | ⟨rfl, rfl⟩ | ⟨v, rfl, rfl⟩ | ⟨_, _, ⟨a, rfl⟩, ⟨b, rfl⟩, rfl, rfl⟩
      | ⟨_, _, ⟨a, rfl⟩, ⟨b, rfl⟩, rfl, rfl⟩ | ⟨l, _, _, ⟨a, rfl⟩, ⟨b, rfl⟩, rfl, rfl⟩)
    · exact ⟨.frameExitSafeStart, rfl, rfl⟩
    · exact ⟨.frameDetectBaudRate, rfl, rfl⟩
    · exact ⟨.frameGetVariable v, rfl, rfl⟩
    · exact ⟨.frameSetSpeedForward a b, rfl, commandOfRow_speedForward a b⟩
    · exact ⟨.frameSetSpeedReverse a b, rfl, commandOfRow_speedReverse a b⟩
    · exact ⟨.frameSetLimit l a b, rfl, commandOfRow_limit l a b⟩

end Sys2Proof.Machine
end

section
/-! PROOFS. Rows that run to their end, the records delivered, and the fields a command ignores. -/

namespace Sys2Proof.Machine

variable {s t : State}

/-! ### Frame rows (30_encoding R63, 42_command_sequencer R128) -/

/-- Settles O40. -/
theorem fetchedFrameIsTheLatchedCommands : Obligations.FetchedFrameIsTheLatchedCommands := by
  intro s hp hop
  obtain ⟨i, hi⟩ := exists_encode_eq_frameOf hop s.idQ s.argQ
  exact ⟨i, fetch_of_tx hp hi, hi⟩

/-- Settles O34: a frame row is `sendFrame` of its bytes, which nothing holds up. -/
theorem framesComplete : Obligations.FramesComplete := by
  intro i bytes s hrow hp hx hq ha
  obtain ⟨hi, hlen⟩ : encode i = (.frame, bytes) ∧ bytes.length ≤ 4 := by
    simp only [BitVec.ofNat_toNat] at hrow
    rcases hrow with ⟨rfl, rfl⟩ | ⟨a, b, rfl, rfl⟩ | ⟨a, b, rfl, rfl⟩ | ⟨rfl, rfl⟩
      | ⟨l, a, b, rfl, rfl⟩ | ⟨v, rfl, rfl⟩ <;> exact ⟨rfl, by simp⟩
  have hs : s.Sending bytes.length := hp.trans (if_neg hx.ne).symm
  rw [exec_of_encode_frame hi, sendFrame_of_ready hlen hx.le hs hq ha]
  rfl

/-! ### A response of one byte (41_response_decoder R111) -/

/-- Clearing the first read's flag is masking it out (42_command_sequencer R130). -/
theorem flagPair_clear_bit0 (flags : BitVec 2) : flagPair flags[1] false = flags &&& 2#2 := by
  revert flags; decide

/-- Settles O35: one read, whose request is made or already outstanding. -/
theorem statusResponseCompletes : Obligations.StatusResponseCompletes := by
  intro status s hop hx
  have hx2 : s.rxIdx.toNat < 2 := by rw [hx]; decide
  have hexec : exec (.responseStatus status) s = .next (readWith (some status) s) := rfl
  refine ⟨fun hp hq ha => ?_, fun hp hq => ?_⟩
  · rw [hexec, readWith_of_ready hp hx2 hq ha]
    simp [State.answered, State.requested, State.received, State.rstRead, hop, hx, tail_tail,
      flagPair_clear_bit0]
  · rw [hexec, readWith, requestNext_of_not_rxq (by simp [hp]),
      receiveNext_of_ready hp (headD_of_quiet hq (by omega)) hx2]
    simp [State.received, State.rstRead, hop, hx, flagPair_clear_bit0]

/-! ### Reserved selectors (42_command_sequencer R139) -/

theorem txLen_of_reserved {op : Op} (hop : 5 ≤ op.toNat) : txLen op = 0 := by
  rcases op_cases_of_five_le hop with rfl | rfl | rfl <;> rfl

theorem responseClass_of_reserved {op : Op} (hop : 5 ≤ op.toNat) : responseClass op = .illegal := by
  rcases op_cases_of_five_le hop with rfl | rfl | rfl <;> rfl

theorem rxNeed_of_reserved {op : Op} (hop : 5 ≤ op.toNat) : rxNeed op = 0 := by
  rw [rxNeed, responseClass_of_reserved hop]

/-- Before its delivery a reserved command is its ACCEPT alone: it has no frame and no read. -/
theorem commandRead_of_reserved {op : Op} (hop : 5 ≤ op.toNat) (id : Byte) (arg : Half) :
    s.commandRead op id arg [] = s.rstRead.accepted op id arg := by
  have hlen := frameOf_length op id arg
  refine frameSent_of_all_sent (hlen.symm ▸ sending_accepted op id arg) ?_
  rw [hlen, txLen_of_reserved hop]
  rfl

theorem runCommand_of_reserved {op : Op} (hop : 5 ≤ op.toNat) (hready : s.readyFor 2 0 0 = true)
    (id : Byte) (arg : Half) :
    runCommand op id arg s = (s.rstRead.accepted op id arg).rstRead.delivered := by
  rw [← commandRead_of_reserved hop]
  refine runCommand_of_ready (answers := []) ?_ (rxNeed_of_reserved hop).symm (List.nil_append _).symm
    id arg
  rw [txLen_of_reserved hop, rxNeed_of_reserved hop]
  exact hready

theorem rspRecord_of_reserved (hop : 5 ≤ s.opQ.toNat) : s.rspRecord = illegalResult := by
  rw [State.rspRecord, responseClass_of_reserved hop]

/-- Settles O31: ACCEPT goes to DONE, and DELIVER offers ILLEGAL. -/
theorem reservedSelectorsComplete : Obligations.ReservedSelectorsComplete := by
  intro op i hrow id arg s hready
  obtain ⟨hop, hi⟩ : 5 ≤ op.toNat ∧ commandFields (i id arg) = some (op, id, arg) := by
    rcases hrow with h | h | h <;> cases h <;> exact ⟨by decide, rfl⟩
  rw [exec_of_commandFields hi, runCommand_of_reserved hop hready, State.delivered,
    rspRecord_of_reserved hop]
  simp [State.accepted, State.rstRead, tail_tail, illegalResult]

/-! ### The records delivered (60_exceptions R152) -/

theorem legal_rspRecord (s : State) : s.rspRecord.legal = true := by
  unfold State.rspRecord
  split
  · rfl
  · have hbyte := s.rxB0.isLt
    simp only [statusResult, Result.legal, flagPair_bit1, Bool.not_false, Bool.true_and,
      decide_eq_true_eq, BitVec.toNat_setWidth]
    omega
  · rfl
  · rfl

theorem legalResults_append {l : List Event} {e : Event} (he : resultStream [e] = [])
    (h : ∀ r ∈ resultStream l, r.legal = true) : ∀ r ∈ resultStream (l ++ [e]), r.legal = true := by
  rwa [resultStream_append, he, List.append_nil]

/-- Only DELIVER adds to the results, and what it adds is the record offered. -/
theorem transfersKeep_legalResults :
    TransfersKeep fun s => ∀ r ∈ resultStream s.trace, r.legal = true where
  rstRead _ h := h
  resetDone _ h := legalResults_append rfl h
  accepted _ _ _ _ _ h := legalResults_append rfl h
  sent _ _ _ _ h := legalResults_append rfl h
  requested _ _ h := legalResults_append rfl h
  received _ _ _ _ h := legalResults_append rfl h
  delivered s _ h := by
    intro r hr
    rw [State.delivered_trace, resultStream_append, List.mem_append] at hr
    rcases hr with hr | hr
    · exact h r hr
    · rw [List.mem_singleton.mp hr]
      exact legal_rspRecord s

/-- Settles O50. -/
theorem deliveredResultsAreLegal : Obligations.DeliveredResultsAreLegal :=
  fun _ _ h hs => transfersKeep_legalResults.step_keeps h hs

/-! ### Ignored fields (30_encoding R61) -/

/-- Two records have the same bytes on TX, the same number of reads and the same results. -/
structure SameStreams (l m : List Event) : Prop where
  tx : txStream l = txStream m
  reads : readCount l = readCount m
  results : resultStream l = resultStream m

theorem SameStreams.append {l m : List Event} (h : SameStreams l m) (events : List Event) :
    SameStreams (l ++ events) (m ++ events) where
  tx := by rw [txStream_append, txStream_append, h.tx]
  reads := by rw [readCount_append, readCount_append, h.reads]
  results := by rw [resultStream_append, resultStream_append, h.results]

/-- The word taken on CMD is on none of the three streams. -/
theorem sameStreams_cmd (l : List Event) (cw cw' : CmdWord) :
    SameStreams (l ++ [.cmd cw]) (l ++ [.cmd cw']) where
  tx := by rw [txStream_append, txStream_append]; rfl
  reads := by rw [readCount_append, readCount_append]; rfl
  results := by rw [resultStream_append, resultStream_append]; rfl

/-- Accepted with other fields, a command of the same selector is the same run as far as later
transfers can tell: they read the frame, not the fields. -/
theorem sameRun_accepted (s : State) (op : Op) (id id' : Byte) (arg arg' : Half) :
    SameRun (s.trace ++ [.cmd (cmdWord op id arg)]) (s.trace ++ [.cmd (cmdWord op id' arg')])
      (s.accepted op id arg) (s.accepted op id' arg') :=
  { phase := rfl, rst := rfl, cmdOffers := rfl, txAllow := rfl, rxqAllow := rfl, rxrAnswers := rfl
    rspAllow := rfl
    trace := ⟨[], (List.append_nil _).symm, (List.append_nil _).symm⟩
    command := fun _ =>
      { opQ := rfl, txIdx := rfl, rxIdx := rfl, rxTo := rfl
        rxB0 := fun _ => rfl, rxB1 := fun _ => rfl, record := fun _ => rfl } }

/-- Commands of one selector with one frame do the same on TX, RX and RSP, whatever their fields and
whatever the link and the host do. -/
theorem runCommand_same_of_frameOf_eq {op : Op} {id id' : Byte} {arg arg' : Half}
    (hf : frameOf op id arg = frameOf op id' arg') (s : State) :
    SameStreams (runCommand op id arg s).trace (runCommand op id' arg' s).trace
      ∧ (runCommand op id arg s).phase = (runCommand op id' arg' s).phase := by
  by_cases hp : s.phase = .idle
  · cases hr : s.rst.headD false with
    | true =>
      rw [runCommand_of_reset hp hr, runCommand_of_reset hp hr]
      exact ⟨⟨rfl, rfl, rfl⟩, rfl⟩
    | false =>
      have hp' : s.rstRead.phase = .idle := hp
      rw [runCommand_of_idle op id arg hp, runCommand_of_idle op id' arg' hp,
        opportunity_of_no_reset hr, opportunity_of_no_reset hr, accept, accept, if_pos hp',
        if_pos hp', hf]
      have h := (((sameRun_accepted s.rstRead op id id' arg arg').sendFrame
        (frameOf op id' arg')).readResponse).deliverResult
      obtain ⟨events, htrace, htrace'⟩ := h.trace
      rw [htrace, htrace']
      exact ⟨(sameStreams_cmd _ _ _).append events, h.phase.symm⟩
  · rw [runCommand_of_busy op id arg hp, runCommand_of_busy op id' arg' hp]
    exact ⟨⟨rfl, rfl, rfl⟩, rfl⟩

/-- Settles O55: an ignored field is not in the frame. -/
theorem ignoredFieldsHaveNoEffect : Obligations.IgnoredFieldsHaveNoEffect := by
  intro i j s hrow
  obtain ⟨op, id, arg, id', arg', hi, hj, hf⟩ : ∃ op id arg id' arg',
      commandFields i = some (op, id, arg) ∧ commandFields j = some (op, id', arg')
        ∧ frameOf op id arg = frameOf op id' arg' := by
    rcases hrow with ⟨id, arg, id', arg', rfl, rfl⟩ | ⟨id, id', speed, rfl, rfl⟩
      | ⟨id, arg, id', arg', rfl, rfl⟩ | ⟨v, arg, arg', rfl, rfl⟩ | ⟨id, arg, id', arg', rfl, rfl⟩
      | ⟨id, arg, id', arg', rfl, rfl⟩ | ⟨id, arg, id', arg', rfl, rfl⟩ <;>
      exact ⟨_, _, _, _, _, rfl, rfl, rfl⟩
  obtain ⟨hstreams, hphase⟩ := runCommand_same_of_frameOf_eq hf s
  exact ⟨_, _, exec_of_commandFields hi s, exec_of_commandFields hj s, hstreams.tx, hstreams.reads,
    hstreams.results, hphase⟩

end Sys2Proof.Machine
end

section
/-! PROOFS. A run under the launch premises: resets in IDLE cost no command, and none comes in the
transfers of one, so every command offered is done in order (70_reset_and_hazards R189, R190). -/

namespace Sys2Proof.Machine

variable {s t u : State}

/-! ### The transfer opportunity of each phase -/

theorem opportunity_congr {f g : State → State} (h : f s.rstRead = g s.rstRead) :
    opportunity f s = opportunity g s := by
  rw [opportunity, opportunity, h]

theorem clockStep_of_idle_offer (hp : s.phase = .idle) {cw : CmdWord} {rest : List CmdWord}
    (hc : s.cmdOffers = cw :: rest) :
    clockStep s = opportunity (accept (cmdOp cw) (cmdId cw) (cmdArg cw)) s :=
  opportunity_congr (by simp [transferOf, hp, State.cmdOffered, hc])

theorem clockStep_of_tx (hp : s.phase = .tx) : clockStep s = sendNext s.currentFrame s := by
  rw [sendNext, if_pos hp]
  exact opportunity_congr (by simp [transferOf, hp, State.currentFrame])

theorem clockStep_of_rxq (hp : s.phase = .rxq) : clockStep s = requestNext s := by
  rw [requestNext, if_pos hp]
  exact opportunity_congr (by simp [transferOf, hp])

theorem clockStep_of_rxr (hp : s.phase = .rxr) {a : Option Byte} {rest : List (Option Byte)}
    (ha : s.rxrAnswers = a :: rest) : clockStep s = receiveNext a s := by
  rw [receiveNext, if_pos hp]
  exact opportunity_congr (by simp [transferOf, hp, State.answerOffered, ha])

theorem clockStep_of_done (hp : s.phase = .done) : clockStep s = deliverResult s := by
  rw [deliverResult, if_pos hp]
  exact opportunity_congr (by simp [transferOf, hp])

/-- Each opportunity reads one sample of `rst`, whatever it does (log 6). -/
theorem clockStep_rst (s : State) : (clockStep s).rst = s.rst.tail := by
  rcases opportunity_cases transferOf s with ⟨-, e⟩ | ⟨-, e⟩ <;> rw [clockStep, e]
  · rfl
  · rcases transferOf_cases s.rstRead with ⟨_, -, -, e'⟩ | ⟨_, -, -, -, e'⟩ | ⟨-, -, e'⟩
      | ⟨_, -, -, -, e'⟩ | ⟨-, -, e'⟩ | e' <;> rw [e'] <;> rfl

/-! ### No reset during a command (70_reset_and_hazards R189 P2) -/

theorem noResetInCommand_clockStep (h : s.noResetInCommand = true) :
    (clockStep s).noResetInCommand = true := by
  rw [State.noResetInCommand, clockStep_rst]
  cases hr : s.rst with
  | nil => rfl
  | cons b later =>
    rw [State.noResetInCommand, hr] at h
    exact ((resetsOnlyInIdle_succ _ s).mp h).2

theorem headD_of_busy (h : s.noResetInCommand = true) (hp : s.phase ≠ .idle) :
    s.rst.headD false = false := by
  cases hr : s.rst with
  | nil => rfl
  | cons b later =>
    rw [State.noResetInCommand, hr] at h
    obtain ⟨hidle, -⟩ := (resetsOnlyInIdle_succ _ s).mp h
    rw [hr] at hidle
    exact Bool.eq_false_iff.mpr fun hb => hp (hidle hb)

/-- The `n` samples of `rst` from `s` to `t` are 0, and after `t` a reset comes in IDLE only. -/
structure QuietUpTo (n : Nat) (s t : State) : Prop where
  quiet : s.quiet n = true
  rst : t.rst = s.rst.drop n
  later : t.noResetInCommand = true

theorem QuietUpTo.refl (h : s.noResetInCommand = true) : QuietUpTo 0 s s := ⟨rfl, rfl, h⟩

theorem QuietUpTo.trans {m n : Nat} (h : QuietUpTo m s t) (h' : QuietUpTo n t u) :
    QuietUpTo (m + n) s u where
  quiet := by
    rw [quiet_iff, List.take_add]
    intro b hb
    rcases List.mem_append.mp hb with hb | hb
    · exact quiet_iff.mp h.quiet b hb
    · exact quiet_iff.mp h'.quiet b (h.rst ▸ hb)
  rst := by rw [h'.rst, h.rst, List.drop_drop]
  later := h'.later

theorem quietUpTo_clockStep (h : s.noResetInCommand = true) (hr : s.rst.headD false = false) :
    QuietUpTo 1 s (clockStep s) where
  quiet := by
    rw [quiet_iff]
    cases hrst : s.rst with
    | nil => simp
    | cons b later => simpa [hrst] using hr
  rst := (clockStep_rst s).trans List.drop_one.symm
  later := noResetInCommand_clockStep h

/-! ### A command that the link serves is done without a reset -/

/-- The rest of a frame that the link takes is sent before any reset. -/
theorem quietUpTo_frameSent {f : List Byte} (hlen : f.length ≤ 4) (n : Nat) (s : State)
    (hn : s.txIdx.toNat + n = f.length) (hf : s.currentFrame = f) (hs : s.Sending f.length)
    (ha : atLeast n s.txAllow = true) (h : s.noResetInCommand = true) :
    QuietUpTo n s (s.frameSent f) := by
  induction n generalizing s with
  | zero =>
    rw [frameSent_of_all_sent hs hn]
    exact .refl h
  | succ n ih =>
    have hx : s.txIdx.toNat < f.length := by omega
    have hp : s.phase = .tx := hs.trans (if_neg hx.ne)
    have hr := headD_of_busy h (by simp [hp])
    have hclock : clockStep s = s.rstRead.sent f.length f[s.txIdx.toNat] := by
      rw [clockStep_of_tx hp, hf, sendNext_of_ready hp hr (allows_of_atLeast ha (by omega)) hx]
    have hfirst := quietUpTo_clockStep h hr
    rw [hclock] at hfirst
    have hrest := ih (s.rstRead.sent f.length f[s.txIdx.toNat])
      (by rw [State.sent_txIdx, State.rstRead_txIdx, toNat_txIdx_succ hlen hx]; omega) hf
      (sending_sent hlen hx hp _) (atLeast_spend ha (by omega)) hfirst.later
    rw [frameSent_sent hlen hx] at hrest
    exact Nat.add_comm 1 n ▸ hfirst.trans hrest

/-- A read, request and answer, is made before any reset. -/
theorem quietUpTo_answered (hp : s.phase = .rxq) (hx : s.rxIdx.toNat < 2)
    (hready : s.rxqReady = true) {a : Option Byte} {rest : List (Option Byte)}
    (ha : s.rxrAnswers = a :: rest) (h : s.noResetInCommand = true) :
    QuietUpTo 2 s (s.answered a) := by
  have hr := headD_of_busy h (by simp [hp])
  have hrequest := quietUpTo_clockStep h hr
  rw [clockStep_of_rxq hp, requestNext_of_ready hp hr hready] at hrequest
  have hr' := headD_of_busy hrequest.later (by simp)
  have hreceive := quietUpTo_clockStep hrequest.later hr'
  rw [clockStep_of_rxr (s := s.rstRead.requested) rfl ha, receiveNext_of_ready rfl hr' hx] at hreceive
  exact hrequest.trans hreceive

theorem quietUpTo_answeredAll (answers rest : List (Option Byte)) (s : State)
    (hneed : s.rxIdx.toNat + answers.length = rxNeed s.opQ) (hs : s.Reading)
    (ha : atLeast answers.length s.rxqAllow = true) (hr : s.rxrAnswers = answers ++ rest)
    (h : s.noResetInCommand = true) :
    QuietUpTo (2 * answers.length) s (s.answeredAll answers) := by
  induction answers generalizing s with
  | nil => exact .refl h
  | cons a answers ih =>
    rw [List.length_cons] at hneed ha
    have hneed2 := rxNeed_le_two s.opQ
    have hx : s.rxIdx.toNat < 2 := by omega
    have hp : s.phase = .rxq := hs.trans (if_neg (by omega))
    have hfirst := quietUpTo_answered hp hx (allows_of_atLeast ha (by omega)) hr h
    have hrest := ih (s.answered a)
      (by rw [answered_rxIdx hx, Nat.add_assoc, Nat.add_comm 1]; exact hneed)
      (reading_answered hx a) (atLeast_spend ha (by omega))
      (by simp [State.answered, hr]) hfirst.later
    rw [List.length_cons, Nat.mul_succ, Nat.add_comm]
    exact hfirst.trans hrest

theorem quietUpTo_accepted {cw : CmdWord} {offers : List CmdWord} (hp : s.phase = .idle)
    (h : s.noResetInCommand = true) (hr : s.rst.headD false = false)
    (hc : s.cmdOffers = cw :: offers) :
    QuietUpTo 1 s (s.rstRead.accepted (cmdOp cw) (cmdId cw) (cmdArg cw)) := by
  have haccept := quietUpTo_clockStep h hr
  rwa [clockStep_of_idle_offer hp hc, opportunity_of_no_reset hr, accept,
    if_pos (show s.rstRead.phase = .idle from hp)] at haccept

theorem quietUpTo_commandRead {cw : CmdWord} {offers : List CmdWord}
    {answers rest : List (Option Byte)} (hp : s.phase = .idle) (h : s.noResetInCommand = true)
    (hr : s.rst.headD false = false) (hc : s.cmdOffers = cw :: offers)
    (htx : atLeast (txLen (cmdOp cw)) s.txAllow = true)
    (hrx : atLeast (rxNeed (cmdOp cw)) s.rxqAllow = true)
    (hneed : answers.length = rxNeed (cmdOp cw)) (ha : s.rxrAnswers = answers ++ rest) :
    QuietUpTo (1 + txLen (cmdOp cw) + 2 * rxNeed (cmdOp cw)) s
      (s.commandRead (cmdOp cw) (cmdId cw) (cmdArg cw) answers) := by
  have hlen := frameOf_length (cmdOp cw) (cmdId cw) (cmdArg cw)
  have haccept := quietUpTo_accepted hp h hr hc
  have hsend := quietUpTo_frameSent (hlen ▸ txLen_le_four (cmdOp cw)) (txLen (cmdOp cw))
    (s.rstRead.accepted (cmdOp cw) (cmdId cw) (cmdArg cw)) ((Nat.zero_add _).trans hlen.symm) rfl
    (hlen ▸ sending_accepted _ _ _) htx haccept.later
  have hread := quietUpTo_answeredAll answers rest
    ((s.rstRead.accepted (cmdOp cw) (cmdId cw) (cmdArg cw)).frameSent _)
    ((Nat.zero_add _).trans hneed) (reading_frameSent rfl _) (hneed ▸ hrx) ha hsend.later
  rw [hneed] at hread
  exact (haccept.trans hsend).trans hread

theorem quietUpTo_delivered (hp : s.phase = .done) (hrsp : s.rspReady = true)
    (h : s.noResetInCommand = true) : QuietUpTo 1 s s.rstRead.delivered := by
  have hr := headD_of_busy h (by simp [hp])
  have hdeliver := quietUpTo_clockStep h hr
  rwa [clockStep_of_done hp, deliverResult_of_ready hp hr hrsp] at hdeliver

/-- A command whose ACCEPT finds no reset runs to its DELIVER without one (R189 P2, P7). -/
theorem quietUpTo_command {cw : CmdWord} {offers : List CmdWord} {answers rest : List (Option Byte)}
    (hp : s.phase = .idle) (h : s.noResetInCommand = true) (hr : s.rst.headD false = false)
    (hc : s.cmdOffers = cw :: offers) (htx : atLeast (txLen (cmdOp cw)) s.txAllow = true)
    (hrx : atLeast (rxNeed (cmdOp cw)) s.rxqAllow = true) (hrsp : s.rspReady = true)
    (hneed : answers.length = rxNeed (cmdOp cw)) (ha : s.rxrAnswers = answers ++ rest) :
    QuietUpTo (txLen (cmdOp cw) + 2 * rxNeed (cmdOp cw) + 2) s
      (s.commandRead (cmdOp cw) (cmdId cw) (cmdArg cw) answers).rstRead.delivered := by
  have hread := quietUpTo_commandRead hp h hr hc htx hrx hneed ha
  have hrsp' : (s.commandRead (cmdOp cw) (cmdId cw) (cmdArg cw) answers).rspReady = true := by
    rw [State.rspReady, State.commandRead, answeredAll_rspAllow]
    exact hrsp
  have hall := hread.trans
    (quietUpTo_delivered (commandRead_phase hneed (cmdId cw) (cmdArg cw)) hrsp' hread.later)
  rwa [show 1 + txLen (cmdOp cw) + 2 * rxNeed (cmdOp cw) + 1
    = txLen (cmdOp cw) + 2 * rxNeed (cmdOp cw) + 2 by omega] at hall

/-! ### Commands and resets in any order -/

/-- P1, P2 and P7, with a host that takes the results (70_reset_and_hazards R189). -/
structure LaunchReady (s : State) : Prop where
  idle : s.phase = .idle
  noReset : s.noResetInCommand = true
  tx : atLeast (expectedBytes s.cmdOffers).length s.txAllow = true
  rxq : atLeast (expectedReads s.cmdOffers) s.rxqAllow = true
  answers : expectedReads s.cmdOffers ≤ s.rxrAnswers.length
  rsp : atLeast s.cmdOffers.length s.rspAllow = true

theorem launchReady_of_premises (hidle : s.idleAtLaunch = true) (hrst : s.noResetInCommand = true)
    (hlink : s.linkServes = true) (hhost : s.hostTakesResults = true) : LaunchReady s := by
  simp only [State.linkServes, Bool.and_eq_true, decide_eq_true_eq] at hlink
  obtain ⟨⟨htx, hrx⟩, hans⟩ := hlink
  exact ⟨beq_iff_eq.mp hidle, hrst, htx, hrx, hans, hhost⟩

/-- From `s` to `t` every command offered in `s` has been done, in order (70_reset_and_hazards
R190). -/
structure CommandsDone (s t : State) : Prop where
  phase : t.phase = .idle
  cmdOffers : t.cmdOffers = []
  tx : txStream t.trace = txStream s.trace ++ expectedBytes s.cmdOffers
  reads : readCount t.trace = readCount s.trace + expectedReads s.cmdOffers
  results : resultStream t.trace = resultStream s.trace
    ++ expectedResults Config.sentinelByte s.cmdOffers s.rxrAnswers

theorem CommandsDone.of_nothing_offered (hp : s.phase = .idle) (hc : s.cmdOffers = []) :
    CommandsDone s s := by
  constructor <;> simp [hp, hc, expectedResults]

theorem CommandsDone.of_command {cw : CmdWord} {offers : List CmdWord}
    (hc : s.cmdOffers = cw :: offers) (hneed : rxNeed (cmdOp cw) ≤ s.rxrAnswers.length)
    (hu : CommandCompletes cw s u) (ht : CommandsDone u t) : CommandsDone s t := by
  have hoffers : u.cmdOffers = offers := by rw [hu.cmdOffers, hc, List.tail_cons]
  obtain ⟨htx, hreads, hresults⟩ :=
    streams_of_commandTrace Config.sentinelByte (cmdId cw) (cmdArg cw) hneed
  constructor
  case phase => exact ht.phase
  case cmdOffers => exact ht.cmdOffers
  case tx =>
    rw [ht.tx, hu.trace, txStream_append, htx, List.append_assoc, hoffers, hc, expectedBytes_cons]
  case reads =>
    rw [ht.reads, hu.trace, readCount_append, hreads, Nat.add_assoc, hoffers, hc,
      expectedReads_cons]
  case results =>
    rw [ht.results, hu.trace, resultStream_append, hresults, List.append_assoc, hoffers, hc,
      hu.rxrAnswers]
    rfl

/-- A reset in IDLE costs no command: the offers and the link's answers stay (R175). -/
theorem CommandsDone.of_reset (ht : CommandsDone s.rstRead.resetDone t) : CommandsDone s t where
  phase := ht.phase
  cmdOffers := ht.cmdOffers
  tx := by
    rw [ht.tx, State.resetDone_trace, txStream_append]
    exact congrArg (· ++ _) (List.append_nil _)
  reads := by
    rw [ht.reads, State.resetDone_trace, readCount_append]
    rfl
  results := by
    rw [ht.results, State.resetDone_trace, resultStream_append]
    exact congrArg (· ++ _) (List.append_nil _)

theorem LaunchReady.after_reset (h : LaunchReady s) (hr : s.rst.headD false = true) :
    LaunchReady s.rstRead.resetDone :=
  { h with
    idle := rfl
    noReset := opportunity_of_reset hr transferOf ▸ noResetInCommand_clockStep h.noReset }

/-- A step without a reset does the first command offered, and leaves the premises for the rest. -/
theorem LaunchReady.step_command (h : LaunchReady s) {cw : CmdWord} {offers : List CmdWord}
    (hc : s.cmdOffers = cw :: offers) (hr : s.rst.headD false = false) :
    ∃ u, step s = .next u ∧ CommandCompletes cw s u ∧ LaunchReady u := by
  obtain ⟨hidle, hrst, htx, hrx, hans, hrsp⟩ := h
  rw [hc, expectedBytes_cons, List.length_append, frameOf_length] at htx
  rw [hc, expectedReads_cons] at hrx hans
  rw [hc, List.length_cons] at hrsp
  have hneed : rxNeed (cmdOp cw) ≤ s.rxrAnswers.length := by omega
  have hlen := List.length_take_of_le hneed
  have hsplit := (List.take_append_drop (rxNeed (cmdOp cw)) s.rxrAnswers).symm
  have htx' : atLeast (txLen (cmdOp cw)) s.txAllow = true :=
    spend_zero s.txAllow ▸ atLeast_spend htx (by omega)
  have hrx' : atLeast (rxNeed (cmdOp cw)) s.rxqAllow = true :=
    spend_zero s.rxqAllow ▸ atLeast_spend hrx (by omega)
  have hrsp' : s.rspReady = true := allows_of_atLeast hrsp (by omega)
  have hquiet := quietUpTo_command hidle hrst hr hc htx' hrx' hrsp' hlen hsplit
  have hready := readyFor_iff.mpr ⟨hidle, hquiet.quiet, htx', hrx', hrsp'⟩
  obtain ⟨u, hu, hdone⟩ := step_of_ready hready hc hneed
  have hlater : u.noResetInCommand = true := by
    have hrun := (step_of_idle_offer hidle hc).trans
      (congrArg _ (runCommand_of_ready hready hlen hsplit (cmdId cw) (cmdArg cw)))
    cases hu.symm.trans hrun
    exact hquiet.later
  have hoffers : u.cmdOffers = offers := by rw [hdone.cmdOffers, hc, List.tail_cons]
  refine ⟨u, hu, hdone, hdone.phase, hlater, ?_, ?_, ?_, ?_⟩ <;> rw [hoffers]
  · rw [hdone.txAllow]
    exact atLeast_spend htx (by omega)
  · rw [hdone.rxqAllow]
    exact atLeast_spend hrx (by omega)
  · rw [hdone.rxrAnswers, List.length_drop]
    omega
  · rw [hdone.rspAllow]
    exact atLeast_spend hrsp (by omega)

/-- Each step takes a command or a sample of `rst`, so the two bound the steps of a run. -/
theorem exists_run_of_launchReady (n : Nat) (s : State)
    (hn : s.cmdOffers.length + s.rst.length ≤ n) (h : LaunchReady s) :
    ∃ k t, k ≤ n ∧ Host.Core.run Sys2Proof.core k s = .next t ∧ CommandsDone s t := by
  induction n generalizing s with
  | zero =>
    exact ⟨0, s, Nat.le_refl 0, rfl, .of_nothing_offered h.idle
      (List.eq_nil_of_length_eq_zero (by omega))⟩
  | succ n ih =>
    cases hc : s.cmdOffers with
    | nil => exact ⟨0, s, Nat.zero_le _, rfl, .of_nothing_offered h.idle hc⟩
    | cons cw offers =>
      rw [hc, List.length_cons] at hn
      cases hr : s.rst.headD false with
      | true =>
        have hlen : s.rst.tail.length + 1 = s.rst.length := by
          cases hrst : s.rst with
          | nil => simp [hrst] at hr
          | cons b later => rfl
        obtain ⟨k, t, hk, ht, hdone⟩ := ih s.rstRead.resetDone
          (by simp only [State.resetDone_cmdOffers, State.rstRead_cmdOffers, State.resetDone_rst,
                State.rstRead_rst, hc, List.length_cons]; omega) (h.after_reset hr)
        have hstep := step_of_reset (sequenceInv_of_idle h.idle) hr
        exact ⟨k + 1, t, by omega, (run_succ_of_step hstep).trans ht, hdone.of_reset⟩
      | false =>
        obtain ⟨u, hu, hcomp, hready⟩ := h.step_command hc hr
        obtain ⟨k, t, hk, ht, hdone⟩ := ih u
          (by rw [hcomp.cmdOffers, hcomp.rst, hc, List.tail_cons, List.length_drop]; omega) hready
        have hneed : rxNeed (cmdOp cw) ≤ s.rxrAnswers.length := by
          have := h.answers
          rw [hc, expectedReads_cons] at this
          omega
        exact ⟨k + 1, t, by omega, (run_succ_of_step hu).trans ht,
          .of_command hc hneed hcomp hdone⟩

/-- Settles O57: the run by induction on what is left of commands and samples of `rst`; the reading
back command by command. -/
theorem launchPremisesSuffice : Obligations.LaunchPremisesSuffice := by
  intro s hidle hrst hdomain hlink hhost
  obtain ⟨k, t, hk, ht, hdone⟩ :=
    exists_run_of_launchReady _ s (Nat.le_refl _) (launchReady_of_premises hidle hrst hlink hhost)
  exact ⟨k, t, hk, ht, hdone.phase, hdone.cmdOffers, hdone.tx, hdone.reads, hdone.results,
    fun cw hcw hop => readFrame_frameOf hop (List.all_eq_true.mp hdomain cw hcw) (cmdId cw)⟩

end Sys2Proof.Machine
end

section
/-! PROOFS. The encoder in integer arithmetic (40_command_encoder R90 to R101): the bytes of every
frame, and what of an operand they hold. -/

namespace Sys2Proof.Machine

/-! ### The fields of an operand as numbers (40_command_encoder R90, R101) -/

@[simp] theorem toNat_low5 (m : Half) : (low5 m).toNat = m.toNat % 32 := by
  rw [low5_eq_setWidth, BitVec.toNat_setWidth_of_le (by omega), BitVec.toNat_setWidth]

@[simp] theorem toNat_high7 (m : Half) : (high7 m).toNat = m.toNat / 32 % 128 := by
  rw [high7_eq_setWidth, BitVec.toNat_setWidth_of_le (by omega), BitVec.toNat_setWidth,
    BitVec.toNat_ushiftRight, Nat.shiftRight_eq_div_pow]

@[simp] theorem toNat_low7 (v : Half) : (low7 v).toNat = v.toNat % 128 := by
  rw [low7_eq_setWidth, BitVec.toNat_setWidth_of_le (by omega), BitVec.toNat_setWidth]

@[simp] theorem toNat_high5 (v : Half) : (high5 v).toNat = v.toNat / 128 % 32 := by
  rw [high5_eq_setWidth, BitVec.toNat_setWidth_of_le (by omega), BitVec.toNat_setWidth,
    BitVec.toNat_ushiftRight, Nat.shiftRight_eq_div_pow]

theorem low5_eq_ofNat (m : Half) : low5 m = BitVec.ofNat 8 (m.toNat % 32) :=
  (BitVec.toNat_eq_nat.mp (toNat_low5 m)).2

theorem high7_eq_ofNat (m : Half) : high7 m = BitVec.ofNat 8 (m.toNat / 32 % 128) :=
  (BitVec.toNat_eq_nat.mp (toNat_high7 m)).2

theorem low7_eq_ofNat (v : Half) : low7 v = BitVec.ofNat 8 (v.toNat % 128) :=
  (BitVec.toNat_eq_nat.mp (toNat_low7 v)).2

theorem high5_eq_ofNat (v : Half) : high5 v = BitVec.ofNat 8 (v.toNat / 128 % 32) :=
  (BitVec.toNat_eq_nat.mp (toNat_high5 v)).2

theorem speedOpcode_eq (arg : Half) : speedOpcode arg = if arg.toInt < 0 then 0x86 else 0x85 := by
  simp only [speedOpcode, msb_iff_toInt_neg]

theorem frameOf_motorSpeed_arith (id : Byte) (arg : Half) :
    frameOf 1#3 id arg
      = [if arg.toInt < 0 then 0x86 else 0x85, BitVec.ofNat 8 (arg.toInt.natAbs % 32),
          BitVec.ofNat 8 (arg.toInt.natAbs / 32 % 128)] := by
  rw [frameOf_motorSpeed, speedOpcode_eq, low5_eq_ofNat, high7_eq_ofNat, toNat_mag]

theorem frameOf_limit_arith (id : Byte) (arg : Half) :
    frameOf 2#3 id arg
      = [0xA2, id, BitVec.ofNat 8 (arg.toNat % 128), BitVec.ofNat 8 (arg.toNat / 128 % 32)] := by
  rw [frameOf_limit, low7_eq_ofNat, high5_eq_ofNat]

/-- Settles O10: the masks and shifts of an operand are remainders and quotients. -/
theorem frameOfEveryCommand : Obligations.FrameOfEveryCommand :=
  ⟨fun id arg => ⟨rfl, frameOf_motorSpeed_arith id arg, frameOf_limit_arith id arg, rfl, rfl,
    fun _ hop => frameOf_of_reserved hop id arg⟩, rfl, frameOf_length⟩

theorem toInt_neg_iff_getLsbD (arg : Half) : arg.toInt < 0 ↔ arg.getLsbD 15 = true := by
  rw [← msb_iff_toInt_neg, BitVec.msb_eq_getLsbD_last]

theorem toNat_mag_le (arg : Half) : (mag arg).toNat ≤ 32768 := by
  have hlo := BitVec.le_toInt arg
  have hhi := BitVec.toInt_lt (x := arg)
  rw [toNat_mag]
  omega

/-- Settles O11: a field is a slice of the operand's bits, and a remainder as a number. -/
theorem encoderArithmetic : Obligations.EncoderArithmetic := by
  refine ⟨fun arg => ?_, by decide, fun m => ?_, fun v => ?_⟩
  · have hmag := toNat_mag_le arg
    refine ⟨toInt_neg_iff_getLsbD arg, toNat_mag arg, hmag, ?_⟩
    rw [BitVec.toNat_ushiftRight, Nat.shiftRight_eq_div_pow]
    omega
  · refine ⟨?_, ?_, ?_, ?_⟩
    · rw [low5_eq_setWidth, ← BitVec.setWidth_eq_extractLsb' (by decide)]
    · rw [toNat_low5]
      omega
    · rw [high7_eq_setWidth, BitVec.setWidth_ushiftRight_eq_extractLsb]
    · rw [toNat_high7]
      omega
  · have hv := v.isLt
    refine ⟨?_, ?_, ?_, ?_, ?_⟩
    · rw [low7_eq_setWidth, ← BitVec.setWidth_eq_extractLsb' (by decide)]
    · rw [toNat_low7]
      omega
    · rw [BitVec.toNat_ushiftRight, Nat.shiftRight_eq_div_pow]
      omega
    · rw [high5_eq_setWidth, BitVec.setWidth_ushiftRight_eq_extractLsb]
    · rw [toNat_high5]
      omega

/-! ### What a frame holds of its operand (40_command_encoder R99, R100) -/

theorem decodeMagnitude_fields (m : Half) : decodeMagnitude (low5 m) (high7 m) = m.toNat % 4096 := by
  rw [low5_eq_setWidth, high7_eq_setWidth, decodeMagnitude_setWidth, speedFields_sum]

theorem decodeLimit_fields (v : Half) : decodeLimit (low7 v) (high5 v) = v.toNat % 4096 := by
  rw [low7_eq_setWidth, high5_eq_setWidth, decodeLimit_setWidth, limitFields_sum]

theorem mag_ofInt {z : Int} (hlo : -32768 ≤ z) (hhi : z < 32768) :
    mag (BitVec.ofInt 16 z) = BitVec.ofNat 16 z.natAbs := by
  have hmag : (mag (BitVec.ofInt 16 z)).toNat = z.natAbs := by
    rw [toNat_mag, BitVec.toInt_ofInt_eq_self (by omega) (by omega) (by omega)]
  exact (BitVec.toNat_eq_nat.mp hmag).2

/-- Settles O12: below 4096 a remainder modulo 4096 is the operand itself. -/
theorem encoderRoundTrips : Obligations.EncoderRoundTrips := by
  refine ⟨fun m hm => ?_, fun id z hlo hhi => ?_, fun id v hv => ⟨rfl, ?_⟩⟩
  · rw [decodeMagnitude_fields, Nat.mod_eq_of_lt (by omega)]
  · have hz : (BitVec.ofInt 16 z).toInt = z :=
      BitVec.toInt_ofInt_eq_self (by omega) (by omega) (by omega)
    refine (frameOf_motorSpeed id _).trans ?_
    rw [speedOpcode_eq, hz, mag_ofInt (by omega) (by omega)]
    simp only [← Int.not_lt, ite_not]
  · exact (decodeLimit_fields v).trans (Nat.mod_eq_of_lt (by omega))

theorem speedOpcode_eq_iff (s t : Half) :
    speedOpcode s = speedOpcode t ↔ (s.toInt < 0 ↔ t.toInt < 0) := by
  rw [speedOpcode_eq, speedOpcode_eq]
  by_cases hs : s.toInt < 0 <;> by_cases ht : t.toInt < 0 <;> simp [hs, ht]

/-- Two operands have the same two speed fields exactly when they agree modulo 4096. -/
theorem speedFields_eq_iff (m n : Half) :
    (low5 m = low5 n ∧ high7 m = high7 n) ↔ m.toNat % 4096 = n.toNat % 4096 := by
  rw [BitVec.toNat_eq, BitVec.toNat_eq, toNat_low5, toNat_low5, toNat_high7, toNat_high7]
  omega

/-- Two operands have the same two limit fields exactly when they agree modulo 4096. -/
theorem limitFields_eq_iff (v w : Half) :
    (low7 v = low7 w ∧ high5 v = high5 w) ↔ v.toNat % 4096 = w.toNat % 4096 := by
  rw [BitVec.toNat_eq, BitVec.toNat_eq, toNat_low7, toNat_low7, toNat_high5, toNat_high5]
  omega

theorem frameOf_motorSpeed_eq_iff (id id' : Byte) (s t : Half) :
    frameOf 1#3 id s = frameOf 1#3 id' t
      ↔ ((s.toInt < 0 ↔ t.toInt < 0) ∧ s.toInt.natAbs % 4096 = t.toInt.natAbs % 4096) := by
  rw [frameOf_motorSpeed, frameOf_motorSpeed, ← toNat_mag, ← toNat_mag, ← speedFields_eq_iff,
    ← speedOpcode_eq_iff]
  simp only [List.cons.injEq, and_true]

theorem frameOf_limit_eq_iff (i j : Byte) (v w : Half) :
    frameOf 2#3 i v = frameOf 2#3 j w ↔ (i = j ∧ v.toNat % 4096 = w.toNat % 4096) := by
  rw [frameOf_limit, frameOf_limit, ← limitFields_eq_iff]
  simp only [List.cons.injEq, and_true, true_and]

/-- Settles O13; the result reads the answers and not the operand. -/
theorem outOfDomainTruncation : Obligations.OutOfDomainTruncation := by
  refine ⟨frameOf_motorSpeed_eq_iff, frameOf_limit_eq_iff, decodeMagnitude_fields,
    decodeLimit_fields, fun sentinel op id arg arg' ans hop => ?_⟩
  rcases hop with rfl | rfl <;> rfl

end Sys2Proof.Machine
end

section
/-! PROOFS. The five commands run to their end (40_command_encoder R91 to R97): the whole state a
command leaves, once for every selector, then each row. -/

namespace Sys2Proof.Machine

variable {s : State}

/-! ### The whole state a command leaves (42_command_sequencer R132) -/

/-- The state after the whole operation of a command that nothing holds up: what is latched, the
indices at their ends, the bytes and flags of the reads it makes, and what is used up. -/
def State.afterCommand (s : State) (op : Op) (id : Byte) (arg : Half) : State :=
  { s with
    phase := .idle
    opQ := op
    idQ := id
    argQ := arg
    txIdx := BitVec.ofNat 3 (txLen op)
    rxIdx := BitVec.ofNat 2 (rxNeed op)
    rxB0 := if 1 ≤ rxNeed op then sub Config.sentinelByte (s.rxrAnswers.getD 0 none) else s.rxB0
    rxB1 := if 2 ≤ rxNeed op then sub Config.sentinelByte (s.rxrAnswers.getD 1 none) else s.rxB1
    rxTo := flagPair (2 ≤ rxNeed op && absentBit (s.rxrAnswers.getD 1 none))
      (1 ≤ rxNeed op && absentBit (s.rxrAnswers.getD 0 none))
    rst := s.rst.drop (txLen op + 2 * rxNeed op + 2)
    cmdOffers := s.cmdOffers.tail
    txAllow := spend (txLen op) s.txAllow
    rxqAllow := spend (rxNeed op) s.rxqAllow
    rxrAnswers := s.rxrAnswers.drop (rxNeed op)
    rspAllow := spend 1 s.rspAllow
    trace := s.trace ++ commandTrace Config.sentinelByte op id arg s.rxrAnswers }

theorem cases_of_length_le_two {α : Type} {l : List α} (h : l.length ≤ 2) :
    l = [] ∨ (∃ a, l = [a]) ∨ ∃ a0 a1, l = [a0, a1] := by
  match l with
  | [] => exact .inl rfl
  | [a] => exact .inr (.inl ⟨a, rfl⟩)
  | [a0, a1] => exact .inr (.inr ⟨a0, a1, rfl⟩)
  | _ :: _ :: _ :: _ => simp at h

@[simp] theorem readEvents_nil : readEvents [] = [] := rfl

/-- With the second flag clear the pair is the first flag as a number. -/
theorem flagPair_false (b : Bool) : flagPair false b = if b then 1#2 else 0#2 := by
  cases b <;> rfl

theorem flagPair_false_false : flagPair false false = 0#2 := flagPair_false false

/-- `DecodeStatus` with its record written out (41_response_decoder R111). -/
theorem decodeStatus_eq (sentinel : Byte) (a : Option Byte) :
    decodeStatus sentinel a
      = ⟨.status, if a.isNone then 1 else 0, (a.getD sentinel).setWidth 16⟩ := by
  rw [decodeStatus, statusResult, flagPair_false]
  rfl

/-- `DecodeVariable` with its record written out, low byte first (41_response_decoder R112). -/
theorem decodeVariable_eq (sentinel : Byte) (a0 a1 : Option Byte) :
    decodeVariable sentinel a0 a1
      = ⟨.variable, BitVec.ofBool a1.isNone ++ BitVec.ofBool a0.isNone,
          a1.getD sentinel ++ a0.getD sentinel⟩ := by
  rw [decodeVariable, variableResult, assemble_eq_append]
  rfl

/-- The record is that of `Exec` whatever the reads; the bytes and the flags depend on how many
answers there are, none, one or two. -/
theorem runCommand_eq_afterCommand {op : Op}
    (hready : s.readyFor (txLen op + 2 * rxNeed op + 2) (txLen op) (rxNeed op) = true)
    (hr : rxNeed op ≤ s.rxrAnswers.length) (id : Byte) (arg : Half) :
    runCommand op id arg s = s.afterCommand op id arg := by
  obtain ⟨answers, rest, hsplit, hneed⟩ : ∃ answers rest,
      s.rxrAnswers = answers ++ rest ∧ answers.length = rxNeed op :=
    ⟨_, _, (List.take_append_drop _ _).symm, List.length_take_of_le hr⟩
  have htake : s.rxrAnswers.take (rxNeed op) = answers := by
    rw [hsplit, ← hneed, List.take_left]
  have hrec : (s.commandRead op id arg answers).rstRead.rspRecord
      = (bigStep Config.sentinelByte op id arg s.rxrAnswers).result := by
    rw [hsplit]
    exact rspRecord_answeredAll rfl rfl hneed id arg
  rw [runCommand_of_ready hready hneed hsplit, State.delivered, hrec, State.rstRead_trace,
    commandRead_trace, State.afterCommand, commandTrace, htake]
  rcases cases_of_length_le_two (hneed ▸ rxNeed_le_two op) with rfl | ⟨a, rfl⟩ | ⟨a0, a1, rfl⟩ <;>
    simp [State.commandRead, State.answeredAll, State.answered, State.frameSent, frameOf_length,
      ← hneed, hsplit, flagPair_false_false]

/-- A command row that nothing holds up leaves exactly this state. -/
theorem exec_eq_afterCommand {i : Instr} {op : Op} {id : Byte} {arg : Half}
    (hi : commandFields i = some (op, id, arg))
    (hready : s.readyFor (txLen op + 2 * rxNeed op + 2) (txLen op) (rxNeed op) = true)
    (hr : rxNeed op ≤ s.rxrAnswers.length) : exec i s = .next (s.afterCommand op id arg) := by
  rw [exec_of_commandFields hi, runCommand_eq_afterCommand hready hr]

/-- A command without reads, the selector's constants put in (42_command_sequencer R137). -/
theorem exec_eq_of_no_read {i : Instr} {op : Op} {id : Byte} {arg : Half}
    (hi : commandFields i = some (op, id, arg)) (hcls : responseClass op = .none)
    (hready : s.readyFor (txLen op + 2) (txLen op) 0 = true) :
    exec i s = .next { s with
      phase := .idle
      opQ := op
      idQ := id
      argQ := arg
      txIdx := BitVec.ofNat 3 (txLen op)
      rxIdx := 0
      rxTo := 0
      rst := s.rst.drop (txLen op + 2)
      cmdOffers := s.cmdOffers.tail
      txAllow := spend (txLen op) s.txAllow
      rspAllow := spend 1 s.rspAllow
      trace := s.trace
        ++ (.cmd (cmdWord op id arg) :: (frameOf op id arg).map .tx ++ [.result noneResult]) } := by
  have hneed : rxNeed op = 0 := by rw [rxNeed, hcls]
  rw [exec_eq_afterCommand hi (by rwa [hneed]) (by rw [hneed]; exact Nat.zero_le _)]
  simp [State.afterCommand, commandTrace, bigStep, hneed, hcls, flagPair_false_false]

/-! ### The rows without a read (40_command_encoder R91, R92, R96) -/

/-- Settles O26: selector 0 has one byte and no read. -/
theorem exitSafeStartCompletes : Obligations.ExitSafeStartCompletes :=
  fun _ _ _ hready => exec_eq_of_no_read rfl rfl hready

/-- Settles O29: selector 3 has one byte and no read. -/
theorem detectBaudRateCompletes : Obligations.DetectBaudRateCompletes :=
  fun _ _ _ hready => exec_eq_of_no_read rfl rfl hready

/-- Settles O27: selector 1 has three bytes, for every speed, and no read. -/
theorem setMotorSpeedCompletes : Obligations.SetMotorSpeedCompletes := by
  intro id speed s hready
  rw [exec_eq_of_no_read (op := 1#3) rfl rfl hready, frameOf_motorSpeed_arith]
  rfl

/-! ### The rows with reads (40_command_encoder R95, R97) -/

/-- Settles O28: selector 2 has four bytes, and its one answer is the status. -/
theorem setLimitCompletes : Obligations.SetLimitCompletes := by
  intro limitId value s a rest hready hr
  rw [exec_eq_afterCommand (op := 2#3) rfl hready (by simp [hr])]
  simp [State.afterCommand, commandTrace, bigStep, hr, low7_eq_ofNat, high5_eq_ofNat, sub, absentBit,
    flagPair_false, decodeStatus_eq]

/-- Settles O30: selector 4 has two bytes, and makes both reads whatever the first answer. -/
theorem getVariableCompletes : Obligations.GetVariableCompletes := by
  intro variableId arg s a0 a1 rest hready hr
  rw [exec_eq_afterCommand (op := 4#3) rfl hready (by simp [hr])]
  simp [State.afterCommand, commandTrace, bigStep, hr, sub, absentBit, flagPair, decodeVariable_eq]

end Sys2Proof.Machine
end

section
/-! PROOFS. What a record says of the answers it was made from (41_response_decoder R110 to R117):
each answer can be read back from its flag and its byte, whatever the sentinel. -/

namespace Sys2Proof.Machine

/-! ### The bytes of the data field (41_response_decoder R115, R117) -/

@[simp] theorem extractLsb'_low_setWidth (b : Byte) :
    (b.setWidth 16 : Half).extractLsb' 0 8 = b := by
  apply BitVec.eq_of_toNat_eq
  have hb := b.isLt
  rw [BitVec.extractLsb'_toNat, BitVec.toNat_setWidth, Nat.shiftRight_zero]
  omega

@[simp] theorem extractLsb'_low_assemble (b0 b1 : Byte) : (assemble b0 b1).extractLsb' 0 8 = b0 := by
  rw [assemble_eq_append, BitVec.extractLsb'_append_eq_right]

@[simp] theorem extractLsb'_high_assemble (b0 b1 : Byte) :
    (assemble b0 b1).extractLsb' 8 8 = b1 := by
  rw [assemble_eq_append, BitVec.extractLsb'_append_eq_left]

/-! ### The fields of the decoded records (41_response_decoder R111, R112) -/

@[simp] theorem decodeStatus_kind (sentinel : Byte) (a : Option Byte) :
    (decodeStatus sentinel a).kind = .status := rfl
@[simp] theorem decodeStatus_absent (sentinel : Byte) (a : Option Byte) :
    (decodeStatus sentinel a).absent = flagPair false (absentBit a) := rfl
@[simp] theorem decodeStatus_data (sentinel : Byte) (a : Option Byte) :
    (decodeStatus sentinel a).data = (sub sentinel a).setWidth 16 := rfl
@[simp] theorem decodeVariable_kind (sentinel : Byte) (a0 a1 : Option Byte) :
    (decodeVariable sentinel a0 a1).kind = .variable := rfl
@[simp] theorem decodeVariable_absent (sentinel : Byte) (a0 a1 : Option Byte) :
    (decodeVariable sentinel a0 a1).absent = flagPair (absentBit a1) (absentBit a0) := rfl
@[simp] theorem decodeVariable_data (sentinel : Byte) (a0 a1 : Option Byte) :
    (decodeVariable sentinel a0 a1).data = assemble (sub sentinel a0) (sub sentinel a1) := rfl

/-! ### Reading the answers back from a record -/

/-- The answer that a flag and a byte stand for: the flag alone says whether there is one. -/
def answerOf (absent : Bool) (b : Byte) : Option Byte := if absent then none else some b

/-- The answer that `to[0]` and the low byte of a record stand for. -/
def Result.answer0 (r : Result) : Option Byte :=
  answerOf (r.absent.getLsbD 0) (r.data.extractLsb' 0 8)

/-- The answer that `to[1]` and the high byte of a record stand for. -/
def Result.answer1 (r : Result) : Option Byte :=
  answerOf (r.absent.getLsbD 1) (r.data.extractLsb' 8 8)

/-- `To` and `Sub` together lose nothing, whatever the sentinel (41_response_decoder R110). -/
theorem answerOf_absentBit_sub (sentinel : Byte) (a : Option Byte) :
    answerOf (absentBit a) (sub sentinel a) = a := by
  cases a <;> rfl

theorem answer0_decodeStatus (sentinel : Byte) (a : Option Byte) :
    (decodeStatus sentinel a).answer0 = a := by
  rw [Result.answer0, decodeStatus_absent, decodeStatus_data, flagPair_bit0,
    extractLsb'_low_setWidth, answerOf_absentBit_sub]

theorem answer0_decodeVariable (sentinel : Byte) (a0 a1 : Option Byte) :
    (decodeVariable sentinel a0 a1).answer0 = a0 := by
  rw [Result.answer0, decodeVariable_absent, decodeVariable_data, flagPair_bit0,
    extractLsb'_low_assemble, answerOf_absentBit_sub]

theorem answer1_decodeVariable (sentinel : Byte) (a0 a1 : Option Byte) :
    (decodeVariable sentinel a0 a1).answer1 = a1 := by
  rw [Result.answer1, decodeVariable_absent, decodeVariable_data, flagPair_bit1,
    extractLsb'_high_assemble, answerOf_absentBit_sub]

theorem decodeStatus_injective (sentinel : Byte) : Function.Injective (decodeStatus sentinel) :=
  Function.LeftInverse.injective (answer0_decodeStatus sentinel)

theorem decodeVariable_inj {sentinel : Byte} {a0 a1 b0 b1 : Option Byte}
    (h : decodeVariable sentinel a0 a1 = decodeVariable sentinel b0 b1) : a0 = b0 ∧ a1 = b1 := by
  have h0 := congrArg Result.answer0 h
  have h1 := congrArg Result.answer1 h
  rw [answer0_decodeVariable, answer0_decodeVariable] at h0
  rw [answer1_decodeVariable, answer1_decodeVariable] at h1
  exact ⟨h0, h1⟩

/-- Settles O17: the answers are read back from the flags and the bytes, and `Sub` gives an absent
byte and one equal to the sentinel the same data. -/
theorem absenceIsOutOfBand : Obligations.AbsenceIsOutOfBand := fun sentinel =>
  ⟨fun _ _ h => decodeStatus_injective sentinel h, fun _ _ _ _ h => decodeVariable_inj h,
    rfl, flagPair_false true, flagPair_false_false⟩

/-! ### The record of a whole command (42_command_sequencer R126, R132) -/

section
variable {op : Op} (sentinel : Byte) (id : Byte) (arg : Half) (ans : List (Option Byte))

theorem bigStep_result_of_none (h : responseClass op = .none) :
    (bigStep sentinel op id arg ans).result = noneResult := by
  simp only [bigStep, h]

theorem bigStep_result_of_illegal (h : responseClass op = .illegal) :
    (bigStep sentinel op id arg ans).result = illegalResult := by
  simp only [bigStep, h]

theorem bigStep_result_of_status (h : responseClass op = .status) :
    (bigStep sentinel op id arg ans).result = decodeStatus sentinel (ans.getD 0 none) := by
  simp only [bigStep, h]

theorem bigStep_result_of_variable (h : responseClass op = .variable) :
    (bigStep sentinel op id arg ans).result
      = decodeVariable sentinel (ans.getD 0 none) (ans.getD 1 none) := by
  simp only [bigStep, h]

end

theorem absentBit_eq_true_iff {a : Option Byte} : absentBit a = true ↔ a = none :=
  Option.isNone_iff_eq_none

/-- Settles O16, by the response class: it fixes how many answers there are and the record made of
them. -/
theorem flagsTellTheAnswers : Obligations.FlagsTellTheAnswers := by
  intro sentinel op id arg ans hlen
  unfold rxNeed at hlen
  match hcls : responseClass op with
  | .none =>
    rw [hcls] at hlen
    obtain rfl := List.eq_nil_of_length_eq_zero hlen
    rw [bigStep_result_of_none sentinel id arg [] hcls]
    simp [noneResult]
  | .illegal =>
    rw [hcls] at hlen
    obtain rfl := List.eq_nil_of_length_eq_zero hlen
    rw [bigStep_result_of_illegal sentinel id arg [] hcls]
    simp [illegalResult]
  | .status =>
    rw [hcls] at hlen
    obtain ⟨a, rfl⟩ := List.length_eq_one_iff.mp hlen
    rw [bigStep_result_of_status sentinel id arg [a] hcls]
    simp +contextual [absentBit_eq_true_iff]
  | .variable =>
    rw [hcls] at hlen
    obtain ⟨a0, a1, rfl⟩ := List.length_eq_two.mp hlen
    rw [bigStep_result_of_variable sentinel id arg [a0, a1] hcls]
    simp +contextual [absentBit_eq_true_iff]

end Sys2Proof.Machine
end

section
/-! PROOFS. Every step as a run of single transfers (42_command_sequencer R125, R132): each run of
transfers that the instructions are made of is a number of opportunities of the small-step machine. -/

namespace Sys2Proof.Machine

variable {s t u : State}

/-! ### Runs of opportunities -/

theorem times_add (m n : Nat) (f : State → State) (s : State) :
    times (m + n) f s = times n f (times m f s) := by
  induction m generalizing s with
  | zero => rw [Nat.zero_add, times]
  | succ m ih => rw [Nat.succ_add, times, times, ih]

/-- `t` comes after `s` by at least `lo` and at most `hi` transfer opportunities. -/
def ClockRun (lo hi : Nat) (s t : State) : Prop :=
  ∃ k, lo ≤ k ∧ k ≤ hi ∧ t = times k clockStep s

theorem ClockRun.refl (s : State) : ClockRun 0 0 s s := ⟨0, le_rfl, le_rfl, rfl⟩

theorem ClockRun.one (s : State) : ClockRun 1 1 s (clockStep s) := ⟨1, le_rfl, le_rfl, rfl⟩

theorem ClockRun.trans {lo hi lo' hi' : Nat} (h : ClockRun lo hi s t) (h' : ClockRun lo' hi' t u) :
    ClockRun (lo + lo') (hi + hi') s u := by
  obtain ⟨k, hlo, hhi, rfl⟩ := h
  obtain ⟨k', hlo', hhi', rfl⟩ := h'
  exact ⟨k + k', by omega, by omega, (times_add k k' clockStep s).symm⟩

theorem ClockRun.mono {lo hi lo' hi' : Nat} (h : ClockRun lo hi s t) (hlo : lo' ≤ lo)
    (hhi : hi ≤ hi') : ClockRun lo' hi' s t := by
  obtain ⟨k, h1, h2, e⟩ := h
  exact ⟨k, hlo.trans h1, h2.trans hhi, e⟩

theorem clockRun_times {hi : Nat} {f : State → State} (hf : ∀ s, ClockRun 0 hi s (f s)) :
    ∀ n s, ClockRun 0 (n * hi) s (times n f s)
  | 0, s => (ClockRun.refl s).mono le_rfl (Nat.zero_le _)
  | n + 1, s => ((hf s).trans (clockRun_times hf n (f s))).mono le_rfl (by
      rw [Nat.succ_mul, Nat.add_comm])

/-! ### A frame (42_command_sequencer R128) -/

/-- The latches name the frame `f` for as long as the block sends. -/
def State.Sends (f : List Byte) (s : State) : Prop := s.phase = .tx → s.currentFrame = f

theorem sends_sendNext {f : List Byte} (h : s.Sends f) : (sendNext f s).Sends f := by
  by_cases hp : s.phase = .tx
  · rw [sendNext, if_pos hp]
    rcases opportunity_cases (send f) s with ⟨-, e⟩ | ⟨-, e⟩
    · simp [State.Sends, e]
    · rcases send_cases f s.rstRead with ⟨b, -, -, -, e'⟩ | ⟨-, e'⟩ <;>
        exact fun _ => by rw [e, e']; exact h hp
  · rwa [sendNext_of_not_tx f hp]

theorem sendNext_eq_clockStep {f : List Byte} (hp : s.phase = .tx) (h : s.Sends f) :
    sendNext f s = clockStep s := by
  rw [clockStep_of_tx hp, h hp]

theorem clockRun_times_sendNext {f : List Byte} (n : Nat) (s : State) (h : s.Sends f) :
    ClockRun 0 n s (times n (sendNext f) s) := by
  induction n generalizing s with
  | zero => exact .refl s
  | succ n ih =>
    by_cases hp : s.phase = .tx
    · have hrest := ih _ (sends_sendNext h)
      rw [sendNext_eq_clockStep hp h] at hrest
      rw [times, sendNext_eq_clockStep hp h]
      exact ((ClockRun.one s).trans hrest).mono (Nat.zero_le _) (by omega)
    · rw [times_of_fixed (sendNext_of_not_tx f hp)]
      exact (ClockRun.refl s).mono le_rfl (Nat.zero_le _)

theorem clockRun_sendFrame {f : List Byte} (h : s.Sends f) : ClockRun 0 4 s (sendFrame f s) :=
  clockRun_times_sendNext 4 s h

theorem clockRun_sendFrame_of_tx {f : List Byte} (hp : s.phase = .tx) (h : s.Sends f) :
    ClockRun 1 4 s (sendFrame f s) := by
  have hrest := clockRun_times_sendNext 3 _ (sends_sendNext h)
  rw [sendFrame, times, sendNext_eq_clockStep hp h]
  rw [sendNext_eq_clockStep hp h] at hrest
  exact (ClockRun.one s).trans hrest

/-! ### Reads and the delivery (42_command_sequencer R129 to R131) -/

/-- In RXR the answer half of a read is the block's opportunity, with an answer or without. -/
theorem receiveOffered_of_rxr (hp : s.phase = .rxr) : receiveOffered s = clockStep s := by
  cases ha : s.rxrAnswers with
  | nil =>
    simp only [receiveOffered, State.answerOffered, ha, List.head?_nil, if_pos hp]
    exact opportunity_congr (by simp [transferOf, hp, State.answerOffered, ha])
  | cons a rest =>
    simp only [receiveOffered, State.answerOffered, ha, List.head?_cons]
    exact (clockStep_of_rxr hp ha).symm

theorem clockRun_requestNext (s : State) : ClockRun 0 1 s (requestNext s) := by
  by_cases hp : s.phase = .rxq
  · rw [← clockStep_of_rxq hp]
    exact (ClockRun.one s).mono (Nat.zero_le _) le_rfl
  · rw [requestNext_of_not_rxq hp]
    exact (ClockRun.refl s).mono le_rfl (Nat.zero_le _)

theorem clockRun_receiveOffered (s : State) : ClockRun 0 1 s (receiveOffered s) := by
  by_cases hp : s.phase = .rxr
  · rw [receiveOffered_of_rxr hp]
    exact (ClockRun.one s).mono (Nat.zero_le _) le_rfl
  · rw [receiveOffered_of_not_rxr hp]
    exact (ClockRun.refl s).mono le_rfl (Nat.zero_le _)

theorem clockRun_readNext (s : State) : ClockRun 0 2 s (readNext s) :=
  (clockRun_requestNext s).trans (clockRun_receiveOffered _)

/-- A read begun in RXQ or RXR has an opportunity of its own. -/
theorem clockRun_readNext_of_reading (hp : s.phase = .rxq ∨ s.phase = .rxr) :
    ClockRun 1 2 s (readNext s) := by
  rcases hp with hp | hp
  · rw [readNext, ← clockStep_of_rxq hp]
    exact (ClockRun.one s).trans (clockRun_receiveOffered _)
  · rw [readNext, requestNext_of_not_rxq (by simp [hp]), receiveOffered_of_rxr hp]
    exact (ClockRun.one s).mono le_rfl (by omega)

theorem clockRun_readResponse (s : State) : ClockRun 0 4 s (readResponse s) :=
  clockRun_times clockRun_readNext 2 s

theorem clockRun_deliverResult (s : State) : ClockRun 0 1 s (deliverResult s) := by
  by_cases hp : s.phase = .done
  · rw [← clockStep_of_done hp]
    exact (ClockRun.one s).mono (Nat.zero_le _) le_rfl
  · rw [deliverResult_of_not_done hp]
    exact (ClockRun.refl s).mono le_rfl (Nat.zero_le _)

/-! ### A response row is a number of the sequencer's own reads (log 10) -/

/-- Everything the request half of a read can do (42_command_sequencer R129). -/
theorem requestNext_cases (s : State) :
    (s.phase ≠ .rxq ∧ requestNext s = s)
      ∨ requestNext s = s.rstRead.resetDone
      ∨ (s.rxqReady = true ∧ requestNext s = s.rstRead.requested)
      ∨ (s.phase = .rxq ∧ s.rxqReady = false ∧ requestNext s = s.rstRead) := by
  by_cases hp : s.phase = .rxq
  · rw [requestNext, if_pos hp]
    rcases opportunity_cases request s with ⟨-, e⟩ | ⟨-, e⟩
    · exact .inr (.inl e)
    · rcases request_cases s.rstRead with ⟨-, hready, e'⟩ | ⟨hno, e'⟩
      · exact .inr (.inr (.inl ⟨hready, e.trans e'⟩))
      · exact .inr (.inr (.inr ⟨hp, hno.resolve_left (not_not_intro hp), e.trans e'⟩))
  · exact .inl ⟨hp, requestNext_of_not_rxq hp⟩

theorem requestNext_keeps_reads (s : State) :
    (requestNext s).phase = .idle
      ∨ ((requestNext s).rxIdx = s.rxIdx ∧ (requestNext s).rxrAnswers = s.rxrAnswers) := by
  rcases requestNext_cases s with ⟨-, e⟩ | e | ⟨-, e⟩ | ⟨-, -, e⟩ <;> simp [e]

/-- A link that does not take the request does not take it at the next opportunity either. -/
theorem requestNext_phase_of_stalled (h : (requestNext s).phase ≠ .rxr) :
    (requestNext (requestNext s)).phase ≠ .rxr := by
  rcases requestNext_cases s with ⟨-, e⟩ | e | ⟨-, e⟩ | ⟨hp, hstall, e⟩
  · rwa [e]
  · rw [e, requestNext_of_not_rxq (by simp)]
    simp
  · exact absurd (by rw [e]; rfl) h
  · rw [e]
    rcases requestNext_cases s.rstRead with ⟨hno, -⟩ | e' | ⟨hready, -⟩ | ⟨-, -, e'⟩
    · exact absurd hp hno
    · simp [e']
    · cases hstall.symm.trans hready
    · simp [e', hp]

/-- Once its request is out, the next reads of `s` are answered with `bytes`. -/
def State.LinkGives (s : State) (bytes : List Byte) : Prop :=
  (requestNext s).phase = .rxr →
    s.rxIdx.toNat + bytes.length ≤ 2 ∧ ∃ rest, s.rxrAnswers = bytes.map some ++ rest

theorem readWith_eq_readNext {b : Byte} {bs : List Byte} (h : s.LinkGives (b :: bs)) :
    readWith (some b) s = readNext s := by
  by_cases hp : (requestNext s).phase = .rxr
  · obtain ⟨-, rest, ha⟩ := h hp
    exact (readNext_eq_readWith ha).symm
  · rw [readWith, readNext, receiveNext_of_not_rxr _ hp, receiveOffered_of_not_rxr hp]

theorem linkGives_readWith {b : Byte} {bs : List Byte} (h : s.LinkGives (b :: bs)) :
    (readWith (some b) s).LinkGives bs := by
  by_cases hp : (requestNext s).phase = .rxr
  · obtain ⟨hlen, rest, ha⟩ := h hp
    obtain hidle | ⟨hx, ha'⟩ := requestNext_keeps_reads s
    · cases hp.symm.trans hidle
    rw [List.length_cons] at hlen
    rw [readWith, receiveNext, if_pos hp]
    rcases opportunity_cases (receive (some b)) (requestNext s) with ⟨-, e⟩ | ⟨-, e⟩
    · intro hq
      rw [e, requestNext_of_not_rxq (by simp)] at hq
      cases hq
    · have hen : (requestNext s).rstRead.phase = .rxr ∧ (requestNext s).rstRead.rxIdx.toNat < 2 :=
        ⟨hp, by rw [State.rstRead_rxIdx, hx]; omega⟩
      intro _
      rw [e, receive, if_pos hen, State.received_rxIdx, State.received_rxrAnswers,
        State.rstRead_rxIdx, State.rstRead_rxrAnswers, hx, ha', ha, toNat_rxIdx_succ (by omega)]
      exact ⟨by omega, rest, rfl⟩
  · intro hq
    rw [readWith, receiveNext_of_not_rxr _ hp] at hq
    exact absurd hq (requestNext_phase_of_stalled hp)

theorem readBytes_eq_times_readNext {bytes : List Byte} (h : s.LinkGives bytes) :
    readBytes bytes s = times bytes.length readNext s := by
  induction bytes generalizing s with
  | nil => rfl
  | cons b bs ih =>
    rw [readBytes_cons, ih (linkGives_readWith h), readWith_eq_readNext h]
    rfl

/-- A whole response has as many bytes as the command reads, and the link is about to give them. -/
theorem wholeResponse_eq_some {op : Op} {answers : List (Option Byte)} {bytes : List Byte}
    (h : wholeResponse (responseClass op) answers = some bytes) :
    bytes.length = rxNeed op ∧ ∃ rest, answers = bytes.map some ++ rest := by
  unfold rxNeed
  unfold wholeResponse at h
  split at h
  · next b rest hcls =>
    cases h
    exact ⟨by rw [hcls]; rfl, rest, rfl⟩
  · next b0 b1 rest hcls =>
    cases h
    exact ⟨by rw [hcls]; rfl, rest, rfl⟩
  · cases h

/-- What is fetched as a response row is the whole response the link is about to give. -/
theorem fetchResponse_instr {i : Instr} (h : fetchResponse s = .instr i) :
    ∃ bytes rest, encode i = (.response, bytes) ∧ s.rxIdx = 0 ∧ bytes.length = rxNeed s.opQ
      ∧ s.rxrAnswers = bytes.map some ++ rest := by
  unfold fetchResponse at h
  split at h
  · next hx =>
    split at h
    · next bytes hw =>
      obtain ⟨hlen, rest, ha⟩ := wholeResponse_eq_some hw
      split at h
      · next i' hd =>
        cases h
        exact ⟨bytes, rest, decodeResponse_ok_iff.mp hd, hx, hlen, ha⟩
      · cases h
    · cases h
  · cases h

/-- In RXQ and RXR a step is one or two of the sequencer's own reads, and no fewer than the command
still needs. -/
theorem step_of_reading_eq_times (hp : s.phase = .rxq ∨ s.phase = .rxr)
    (hx : s.rxIdx.toNat < rxNeed s.opQ) :
    ∃ n, n + 1 ≤ 2 ∧ rxNeed s.opQ ≤ s.rxIdx.toNat + (n + 1)
      ∧ step s = .next (times (n + 1) readNext s) := by
  have hneed := rxNeed_le_two s.opQ
  rcases fetchResponse_cases s with ⟨i, b, bs, -, hf⟩ | hf
  · obtain ⟨bytes, rest, hi, hx0, hlen, ha⟩ := fetchResponse_instr hf
    have hidx : s.rxIdx.toNat = 0 := by rw [hx0]; rfl
    have hgives : s.LinkGives bytes := fun _ => ⟨by omega, rest, ha⟩
    obtain ⟨n, hn⟩ : ∃ n, bytes.length = n + 1 := Nat.exists_eq_succ_of_ne_zero (by omega)
    refine ⟨n, by omega, by omega, ?_⟩
    rw [step_of_fetch_instr ((fetch_of_reading hp).trans hf), exec_of_encode_response hi,
      readBytes_eq_times_readNext hgives, hn]
  · refine ⟨1, le_rfl, by omega, ?_⟩
    simp [step, (fetch_of_reading hp).trans hf, readResponse]

/-! ### Every step -/

theorem clockRun_step_of_reading (hp : s.phase = .rxq ∨ s.phase = .rxr)
    (hinv : s.sequenceInv = true) : ∃ t, step s = .next t ∧ ClockRun 1 4 s t := by
  obtain ⟨-, -, hx⟩ := (sequenceInv_reading_iff hp).mp hinv
  obtain ⟨n, hn, -, hs⟩ := step_of_reading_eq_times hp hx
  exact ⟨_, hs, ((clockRun_readNext_of_reading hp).trans
    (clockRun_times clockRun_readNext n _)).mono le_rfl (by omega)⟩

/-- ACCEPT, up to four SENDs, up to two reads and DELIVER. -/
theorem clockRun_runCommand (hp : s.phase = .idle) {cw : CmdWord} {rest : List CmdWord}
    (hc : s.cmdOffers = cw :: rest) :
    ClockRun 1 10 s (runCommand (cmdOp cw) (cmdId cw) (cmdArg cw) s) := by
  have haccept : ClockRun 1 1 s (opportunity (accept (cmdOp cw) (cmdId cw) (cmdArg cw)) s) :=
    clockStep_of_idle_offer hp hc ▸ ClockRun.one s
  rw [runCommand_of_idle _ _ _ hp]
  exact ((haccept.trans (clockRun_sendFrame (currentFrame_of_accept _ _ _ hp))).trans
    (clockRun_readResponse _)).trans (clockRun_deliverResult _)

theorem clockRun_step (hinv : s.sequenceInv = true) :
    ∃ t, step s = .next t ∧ ClockRun 1 10 s t := by
  cases hp : s.phase with
  | idle =>
    cases hc : s.cmdOffers with
    | nil =>
      have hwait : clockStep s = opportunity id s :=
        opportunity_congr (by simp [transferOf, hp, State.cmdOffered, hc])
      exact ⟨_, step_of_idle_nothing_offered hp hc,
        hwait ▸ (ClockRun.one s).mono le_rfl (by omega)⟩
    | cons cw rest => exact ⟨_, step_of_idle_offer hp hc, clockRun_runCommand hp hc⟩
  | tx =>
    obtain ⟨hop, -, -, -⟩ := (sequenceInv_tx_iff hp).mp hinv
    exact ⟨_, step_of_tx hp hop,
      (clockRun_sendFrame_of_tx hp fun _ => rfl).mono le_rfl (by omega)⟩
  | rxq =>
    obtain ⟨t, ht, hrun⟩ := clockRun_step_of_reading (.inl hp) hinv
    exact ⟨t, ht, hrun.mono le_rfl (by omega)⟩
  | rxr =>
    obtain ⟨t, ht, hrun⟩ := clockRun_step_of_reading (.inr hp) hinv
    exact ⟨t, ht, hrun.mono le_rfl (by omega)⟩
  | done =>
    exact ⟨_, step_of_done hp, clockStep_of_done hp ▸ (ClockRun.one s).mono le_rfl (by omega)⟩

/-- Settles O52: each phase's step is a run of its own transfers, of ten opportunities at most. -/
theorem stepIsARunOfTransfers : Obligations.StepIsARunOfTransfers := by
  intro s hinv
  obtain ⟨_, hs, k, hlo, hhi, rfl⟩ := clockRun_step hinv
  exact ⟨k, hlo, hhi, hs⟩

end Sys2Proof.Machine
end

section
/-! PROOFS. The five transfers one by one (42_command_sequencer R126 to R131), the commands that wait,
and the pseudo-commands. -/

namespace Sys2Proof.Machine

variable {s : State}

/-! ### The table of the selector (42_command_sequencer R126) -/

/-- The kind of a record is the class of its command, whatever was answered. -/
theorem bigStep_result_kind (sentinel : Byte) (op : Op) (id : Byte) (arg : Half)
    (ans : List (Option Byte)) :
    (bigStep sentinel op id arg ans).result.kind = responseClass op := by
  match h : responseClass op with
  | .none => rw [bigStep_result_of_none _ _ _ _ h]; rfl
  | .status => rw [bigStep_result_of_status _ _ _ _ h]; rfl
  | .variable => rw [bigStep_result_of_variable _ _ _ _ h]; rfl
  | .illegal => rw [bigStep_result_of_illegal _ _ _ _ h]; rfl

/-- Settles O14. -/
theorem selectorTable : Obligations.SelectorTable :=
  ⟨rfl, fun sentinel op id arg ans =>
    ⟨frameOf_length op id arg, rfl, bigStep_result_kind sentinel op id arg ans⟩⟩

/-! ### The transfers (42_command_sequencer R127 to R131) -/

/-- Settles O19. -/
theorem acceptTransfer : Obligations.AcceptTransfer := by
  intro s cw rest hp hc hr
  have hp' : s.rstRead.phase = .idle := hp
  rw [clockStep_of_idle_offer hp hc, opportunity_of_no_reset hr, accept, if_pos hp',
    State.accepted, cmdWord_fields, State.rstRead_cmdOffers, hc]
  rfl

/-- Settles O20. -/
theorem sendTransfer : Obligations.SendTransfer := by
  intro s b hp ha hb hr
  obtain ⟨hx, rfl⟩ := List.getElem?_eq_some_iff.mp hb
  refine ⟨hb, ?_⟩
  rw [clockStep_of_tx hp, State.currentFrame, sendNext_of_ready hp hr ha hx, State.sent,
    frameOf_length, State.rstRead_phase, hp]
  rfl

/-- Settles O21. -/
theorem requestTransfer : Obligations.RequestTransfer := by
  intro s hp ha hr
  rw [clockStep_of_rxq hp, requestNext_of_ready hp hr ha]
  rfl

/-- Settles O22: the first answer has `rx_idx` 0, the second has 1. -/
theorem receiveTransfer : Obligations.ReceiveTransfer := by
  intro s a rest hp ha hr
  have hclock (hx : s.rxIdx.toNat < 2) : clockStep s = s.rstRead.received a := by
    rw [clockStep_of_rxr hp ha, receiveNext_of_ready hp hr hx]
  refine ⟨fun hx => ?_, fun hx => ?_⟩ <;> rw [hclock (by rw [hx]; decide)] <;>
    simp [State.received, State.rstRead, hx, ha, sub, flagPair, absentBit, eq_comm]

/-- The first flag alone, widened, is the pair with the second clear (42_command_sequencer R131). -/
theorem flagPair_bit0_alone (flags : BitVec 2) :
    flagPair false (flags.getLsbD 0) = (flags.extractLsb' 0 1).setWidth 2 := by
  revert flags; decide

theorem rspRecord_of_none (h : responseClass s.opQ = .none) : s.rspRecord = noneResult := by
  rw [State.rspRecord, h]

theorem rspRecord_of_status (h : responseClass s.opQ = .status) :
    s.rspRecord = statusResult (s.rxTo.getLsbD 0) s.rxB0 := by
  rw [State.rspRecord, h]

theorem rspRecord_of_variable (h : responseClass s.opQ = .variable) :
    s.rspRecord = variableResult s.rxTo s.rxB0 s.rxB1 := by
  rw [State.rspRecord, h]

/-- Settles O23, by the response class of the latched selector. -/
theorem offeredRecord : Obligations.OfferedRecord := by
  intro s
  refine ⟨fun hop => ?_, fun hop => ?_, fun hop => ?_, rspRecord_of_reserved⟩
  · have hcls : responseClass s.opQ = .none := by rcases hop with h | h | h <;> rw [h] <;> rfl
    exact rspRecord_of_none hcls
  · rw [rspRecord_of_status (by rw [hop]; rfl), statusResult, flagPair_bit0_alone]
  · rw [rspRecord_of_variable (by rw [hop]; rfl), variableResult, assemble_eq_append]

/-- Settles O24. -/
theorem deliverTransfer : Obligations.DeliverTransfer := by
  intro s hp ha hr
  rw [clockStep_of_done hp, deliverResult_of_ready hp hr ha]
  rfl

/-! ### Command rows (42_command_sequencer R133 to R135, R141) -/

/-- Settles O32: each pseudo-command has the selector and fields of a `set_limit`, so the same
meaning. -/
theorem pseudoCommandsComplete : Obligations.PseudoCommandsComplete := by
  intro limitId i hrow value s a rest hready hr
  have hsame : exec (i value) s = exec (.setLimit limitId value) s := by
    rcases hrow with h | h | h <;> cases h <;> rfl
  exact hsame.trans (setLimitCompletes limitId value s a rest hready hr)

/-- Settles O33. -/
theorem commandsWaitWhileBusy : Obligations.CommandsWaitWhileBusy := by
  intro i s hi hp
  obtain ⟨⟨op, id, arg⟩, hi⟩ := Option.isSome_iff_exists.mp hi
  rw [exec_of_commandFields hi, runCommand_of_busy op id arg hp]

/-! ### Waiting (42_command_sequencer R143) -/

theorem rstRead_of_no_sample (h : s.rst = []) : s.rstRead = s := by
  rw [State.rstRead, h, List.tail_nil, ← h]

theorem clockStep_of_no_sample (h : s.rst = []) : clockStep s = transferOf s := by
  rw [clockStep, opportunity_of_no_reset (by rw [h]; rfl), rstRead_of_no_sample h]

/-- The other side of the channel that the phase uses does not take part. -/
def State.heldUp (s : State) : Prop :=
  (s.phase = .idle ∧ s.cmdOffers = []) ∨ (s.phase = .tx ∧ s.txReady = false)
    ∨ (s.phase = .rxq ∧ s.rxqReady = false) ∨ (s.phase = .rxr ∧ s.rxrAnswers = [])
    ∨ (s.phase = .done ∧ s.rspReady = false)

/-- Each transfer needs both sides of its channel. -/
theorem transferOf_of_heldUp (h : s.heldUp) : transferOf s = s := by
  rcases h with ⟨hp, hno⟩ | ⟨hp, hno⟩ | ⟨hp, hno⟩ | ⟨hp, hno⟩ | ⟨hp, hno⟩
  · simp [transferOf, hp, State.cmdOffered, hno]
  · simp [transferOf, hp, send, hno]
  · simp [transferOf, hp, request, hno]
  · simp [transferOf, hp, State.answerOffered, hno]
  · simp [transferOf, hp, deliver, hno]

/-- Settles O42: no transfer is enabled, and a step is a run of transfer opportunities. -/
theorem stalledBlockWaits : Obligations.StalledBlockWaits := by
  intro s hinv hrst hheld
  have hclock : clockStep s = s :=
    (clockStep_of_no_sample hrst).trans (transferOf_of_heldUp hheld)
  obtain ⟨_, hs, k, -, -, rfl⟩ := clockRun_step hinv
  exact ⟨hclock, hs.trans (congrArg _ (times_of_fixed hclock k))⟩

end Sys2Proof.Machine
end

section
/-! PROOFS. A command that was held up is done within three steps once nothing holds it up any more
(42_command_sequencer R143, 70_reset_and_hazards R186): the rest of its frame, its reads, its result. -/

namespace Sys2Proof.Machine

variable {s t u : State}

/-! ### A block that nothing holds up -/

/-- No reset comes, the link takes any bytes and requests, and the host any results. -/
structure Unhindered (s : State) : Prop where
  rst : s.rst = []
  txAllow : s.txAllow = none
  rxqAllow : s.rxqAllow = none
  rspAllow : s.rspAllow = none

theorem Unhindered.headD (h : Unhindered s) : s.rst.headD false = false := by rw [h.rst]; rfl

theorem Unhindered.quiet (h : Unhindered s) (n : Nat) : s.quiet n = true := by
  simp [State.quiet, h.rst]

/-- From `s` to `t` nothing but `bytes` was sent, no result was delivered and no command taken, and
nothing holds up the block in `t`. -/
structure GoesOn (bytes : List Byte) (s t : State) : Prop where
  unhindered : Unhindered t
  cmdOffers : t.cmdOffers = s.cmdOffers
  txStream : txStream t.trace = txStream s.trace ++ bytes
  resultStream : resultStream t.trace = resultStream s.trace

theorem GoesOn.trans {bytes bytes' : List Byte} (h : GoesOn bytes s t) (h' : GoesOn bytes' t u) :
    GoesOn (bytes ++ bytes') s u where
  unhindered := h'.unhindered
  cmdOffers := h'.cmdOffers.trans h.cmdOffers
  txStream := by rw [h'.txStream, h.txStream, List.append_assoc]
  resultStream := h'.resultStream.trans h.resultStream

/-! ### Completion in a number of steps -/

/-- One to `n` steps from `s` end in IDLE, `bytes` sent, one result more delivered, and no new
command taken. -/
def CompletesIn (n : Nat) (bytes : List Byte) (s : State) : Prop :=
  ∃ k t, 1 ≤ k ∧ k ≤ n ∧ Host.Core.run Sys2Proof.core k s = .next t ∧ t.phase = .idle
    ∧ t.cmdOffers = s.cmdOffers ∧ txStream t.trace = txStream s.trace ++ bytes
    ∧ (resultStream t.trace).length = (resultStream s.trace).length + 1

theorem CompletesIn.mono {m n : Nat} {bytes : List Byte} (h : CompletesIn m bytes s) (hmn : m ≤ n) :
    CompletesIn n bytes s := by
  obtain ⟨k, t, hk, hkm, hdone⟩ := h
  exact ⟨k, t, hk, hkm.trans hmn, hdone⟩

theorem CompletesIn.of_step {n : Nat} {bytes bytes' : List Byte} (hs : step s = .next u)
    (hgo : GoesOn bytes s u) (h : CompletesIn n bytes' u) :
    CompletesIn (n + 1) (bytes ++ bytes') s := by
  obtain ⟨k, t, -, hkn, hrun, hp, hc, htx, hres⟩ := h
  refine ⟨k + 1, t, by omega, by omega, (run_succ_of_step hs).trans hrun, hp,
    hc.trans hgo.cmdOffers, ?_, ?_⟩
  · rw [htx, hgo.txStream, List.append_assoc]
  · rw [hres, hgo.resultStream]

/-- In DONE one step delivers the result. -/
theorem completesIn_of_done (hp : s.phase = .done) (hu : Unhindered s) : CompletesIn 1 [] s := by
  have hready : s.rspReady = true := by rw [State.rspReady, hu.rspAllow]; rfl
  have hs : step s = .next s.rstRead.delivered := by
    rw [step_of_done hp, deliverResult_of_ready hp hu.headD hready]
  refine ⟨1, _, le_rfl, le_rfl, run_succ_of_step hs, rfl, rfl, ?_, ?_⟩
  · rw [State.delivered_trace, State.rstRead_trace, txStream_append]
    rfl
  · rw [State.delivered_trace, State.rstRead_trace, resultStream_append, List.length_append]
    rfl

/-! ### The reads (42_command_sequencer R129, R130) -/

/-- One read is taken, and the block goes on to the next one or to DONE. -/
structure ReadTaken (s t : State) : Prop where
  goesOn : GoesOn [] s t
  reading : t.Reading
  opQ : t.opQ = s.opQ
  rxIdx : t.rxIdx.toNat = s.rxIdx.toNat + 1
  rxrAnswers : t.rxrAnswers = s.rxrAnswers.tail

theorem readTaken_answered (hu : Unhindered s) (hx : s.rxIdx.toNat < 2) (a : Option Byte) :
    ReadTaken s (s.answered a) where
  goesOn :=
    { unhindered := ⟨by rw [answered_rst, hu.rst]; rfl, hu.txAllow,
        congrArg (spend 1) hu.rxqAllow, hu.rspAllow⟩
      cmdOffers := rfl
      txStream := by simp [State.answered, txStream]
      resultStream := by simp [State.answered, resultStream] }
  reading := reading_answered hx a
  opQ := rfl
  rxIdx := answered_rxIdx hx a
  rxrAnswers := rfl

theorem readTaken_received (hu : Unhindered s) (hx : s.rxIdx.toNat < 2) (a : Option Byte) :
    ReadTaken s (s.rstRead.received a) where
  goesOn :=
    { unhindered := ⟨by rw [State.received_rst, State.rstRead_rst, hu.rst]; rfl, hu.txAllow,
        hu.rxqAllow, hu.rspAllow⟩
      cmdOffers := rfl
      txStream := by simp [txStream]
      resultStream := by simp [resultStream] }
  reading := by
    rw [State.Reading, State.received_rxIdx, State.rstRead_rxIdx, toNat_rxIdx_succ hx]
    rfl
  opQ := rfl
  rxIdx := toNat_rxIdx_succ hx
  rxrAnswers := rfl

/-- The request may be out already: from RXQ a read is both its halves, from RXR the second one. -/
theorem readTaken_readNext (hu : Unhindered s) (hp : s.phase = .rxq ∨ s.phase = .rxr)
    (hx : s.rxIdx.toNat < 2) {a : Option Byte} {rest : List (Option Byte)}
    (ha : s.rxrAnswers = a :: rest) : ReadTaken s (readNext s) := by
  have hready : s.rxqReady = true := by rw [State.rxqReady, hu.rxqAllow]; rfl
  rw [readNext_eq_readWith ha]
  rcases hp with hp | hp
  · rw [readWith_of_ready hp hx (hu.quiet 2) hready]
    exact readTaken_answered hu hx a
  · rw [readWith, requestNext_of_not_rxq (by simp [hp]), receiveNext_of_ready hp hu.headD hx]
    exact readTaken_received hu hx a

theorem goesOn_answeredAll (hu : Unhindered s) (answers : List (Option Byte)) :
    GoesOn [] s (s.answeredAll answers) where
  unhindered := ⟨by rw [answeredAll_rst, hu.rst, List.drop_nil],
    (answeredAll_txAllow answers s).trans hu.txAllow,
    by rw [answeredAll_rxqAllow, hu.rxqAllow, spend_none],
    (answeredAll_rspAllow answers s).trans hu.rspAllow⟩
  cmdOffers := answeredAll_cmdOffers answers s
  txStream := by
    obtain ⟨htx, -, -⟩ := streams_of_reads answers
    rw [answeredAll_trace, txStream_append, htx]
  resultStream := by
    obtain ⟨-, -, hres⟩ := streams_of_reads answers
    rw [answeredAll_trace, resultStream_append, hres, List.append_nil]

/-- As many reads as the command still needs, or more, end in DONE. -/
theorem times_readNext_of_unhindered (hu : Unhindered s) (hp : s.phase = .rxq ∨ s.phase = .rxr)
    (hx : s.rxIdx.toNat < rxNeed s.opQ)
    (hanswers : rxNeed s.opQ ≤ s.rxIdx.toNat + s.rxrAnswers.length) {n : Nat}
    (hn : rxNeed s.opQ ≤ s.rxIdx.toNat + (n + 1)) :
    GoesOn [] s (times (n + 1) readNext s) ∧ (times (n + 1) readNext s).phase = .done := by
  have hneed := rxNeed_le_two s.opQ
  obtain ⟨a, later, ha⟩ : ∃ a later, s.rxrAnswers = a :: later :=
    List.exists_cons_of_length_pos (by omega)
  have hfirst := readTaken_readNext hu hp (by omega) ha
  rw [ha, List.length_cons] at hanswers
  obtain ⟨answers, rest, hsplit, hlen⟩ : ∃ answers rest, later = answers ++ rest
      ∧ answers.length = rxNeed s.opQ - (s.rxIdx.toNat + 1) :=
    ⟨_, _, (List.take_append_drop _ _).symm, List.length_take_of_le (by omega)⟩
  have hall : (readNext s).rxIdx.toNat + answers.length = rxNeed (readNext s).opQ := by
    rw [hfirst.rxIdx, hfirst.opQ]
    omega
  have hrest : times n readNext (readNext s) = (readNext s).answeredAll answers :=
    times_readNext_of_ready n _ answers rest (by omega) hall hfirst.reading
      (hfirst.goesOn.unhindered.quiet _) (by rw [hfirst.goesOn.unhindered.rxqAllow]; rfl)
      (by rw [hfirst.rxrAnswers, ha, List.tail_cons, hsplit])
  rw [times, hrest]
  exact ⟨hfirst.goesOn.trans (goesOn_answeredAll hfirst.goesOn.unhindered answers),
    answeredAll_phase answers _ hfirst.reading hall⟩

/-- In RXQ and RXR one step makes the reads and one delivers the result. -/
theorem completesIn_of_reading (hu : Unhindered s) (hp : s.phase = .rxq ∨ s.phase = .rxr)
    (hx : s.rxIdx.toNat < rxNeed s.opQ)
    (hanswers : rxNeed s.opQ ≤ s.rxIdx.toNat + s.rxrAnswers.length) : CompletesIn 2 [] s := by
  obtain ⟨n, -, hn, hs⟩ := step_of_reading_eq_times hp hx
  obtain ⟨hgo, hdone⟩ := times_readNext_of_unhindered hu hp hx hanswers hn
  exact .of_step hs hgo (completesIn_of_done hdone hgo.unhindered)

/-! ### The frame (42_command_sequencer R128) -/

theorem goesOn_frameSent (hu : Unhindered s) (f : List Byte) :
    GoesOn (f.drop s.txIdx.toNat) s (s.frameSent f) where
  unhindered := ⟨by simp [State.frameSent, hu.rst], by simp [State.frameSent, hu.txAllow],
    hu.rxqAllow, hu.rspAllow⟩
  cmdOffers := rfl
  txStream := by
    obtain ⟨htx, -, -⟩ := streams_of_frame (f.drop s.txIdx.toNat)
    simp only [State.frameSent, txStream_append, htx]
  resultStream := by
    obtain ⟨-, -, hres⟩ := streams_of_frame (f.drop s.txIdx.toNat)
    simp only [State.frameSent, resultStream_append, hres, List.append_nil]

/-- In TX one step sends the rest of the frame, and the reads, if any, and the result are left. -/
theorem completesIn_of_tx (hu : Unhindered s) (hp : s.phase = .tx) (hinv : s.sequenceInv = true)
    (hanswers : rxNeed s.opQ ≤ s.rxIdx.toNat + s.rxrAnswers.length) :
    CompletesIn 3 (s.currentFrame.drop s.txIdx.toNat) s := by
  obtain ⟨hop, htx, hrx, -⟩ := (sequenceInv_tx_iff hp).mp hinv
  have hlen : s.currentFrame.length = txLen s.opQ := frameOf_length ..
  have hsend : sendFrame s.currentFrame s = s.frameSent s.currentFrame :=
    sendFrame_of_ready (hlen ▸ txLen_le_four _) (by omega) (hp.trans (if_neg (by omega)).symm)
      (hu.quiet _) (by rw [hu.txAllow]; rfl)
  have hs : step s = .next (s.frameSent s.currentFrame) := by rw [step_of_tx hp hop, hsend]
  have hgo := goesOn_frameSent hu s.currentFrame
  rw [← List.append_nil (s.currentFrame.drop _)]
  by_cases hneed : rxNeed s.opQ = 0
  · have hp' : (s.frameSent s.currentFrame).phase = .done := if_pos hneed
    exact (CompletesIn.of_step hs hgo (completesIn_of_done hp' hgo.unhindered)).mono (by omega)
  · have hp' : (s.frameSent s.currentFrame).phase = .rxq := if_neg hneed
    have hx : (s.frameSent s.currentFrame).rxIdx.toNat < rxNeed s.opQ := by
      rw [State.frameSent, hrx]
      exact Nat.pos_of_ne_zero hneed
    exact .of_step hs hgo (completesIn_of_reading hgo.unhindered (.inl hp') hx hanswers)

/-- Past TX no byte of the frame is left. -/
theorem currentFrame_drop_of_sent (h : txLen s.opQ ≤ s.txIdx.toNat) :
    s.currentFrame.drop s.txIdx.toNat = [] :=
  List.drop_of_length_le ((frameOf_length ..).trans_le h)

/-- Settles O44, by the phase that the command was held up in. -/
theorem heldUpCommandCompletes : Obligations.HeldUpCommandCompletes := by
  intro s hinv hbusy hrst htx hrx hrsp hanswers
  have hu : Unhindered s := ⟨hrst, htx, hrx, hrsp⟩
  have hreading (hp : s.phase = .rxq ∨ s.phase = .rxr) :
      CompletesIn 3 (s.currentFrame.drop s.txIdx.toNat) s := by
    obtain ⟨-, hsent, hx⟩ := (sequenceInv_reading_iff hp).mp hinv
    rw [currentFrame_drop_of_sent hsent.ge]
    exact (completesIn_of_reading hu hp hx hanswers).mono (by omega)
  show CompletesIn 3 (s.currentFrame.drop s.txIdx.toNat) s
  cases hp : s.phase with
  | idle => exact absurd hp hbusy
  | tx => exact completesIn_of_tx hu hp hinv hanswers
  | rxq => exact hreading (.inl hp)
  | rxr => exact hreading (.inr hp)
  | done =>
    have hsent : txLen s.opQ ≤ s.txIdx.toNat := by
      rcases (sequenceInv_done_iff hp).mp hinv with ⟨hop, -, -⟩ | ⟨-, hsent, -⟩
      · rw [txLen_of_reserved hop]; exact Nat.zero_le _
      · exact hsent.ge
    rw [currentFrame_drop_of_sent hsent]
    exact (completesIn_of_done hp hu).mono (by omega)

end Sys2Proof.Machine
end

section
/-! PROOFS. When a command has gone wrong (60_exceptions R169): its kind is fixed by the selector and
its flags by the answers, so the two ways to go wrong are read off one by one. -/

namespace Sys2Proof.Machine

theorem Result.goneWrong_iff {r : Result} :
    r.goneWrong = true ↔ r.kind = .illegal ∨ r.absent ≠ 0 := by
  rw [Result.goneWrong, Bool.or_eq_true, beq_iff_eq, bne_iff_ne]

/-- The reserved selectors are the only ones of their class (42_command_sequencer R126). -/
theorem responseClass_eq_illegal_iff {op : Op} : responseClass op = .illegal ↔ 5 ≤ op.toNat := by
  revert op; decide

theorem flags_ne_zero_iff {flags : BitVec 2} :
    flags ≠ 0 ↔ flags.getLsbD 0 = true ∨ flags.getLsbD 1 = true := by
  revert flags; decide

/-- A command reads at most twice, so a missing byte is that of the first read or of the second. -/
theorem none_mem_iff_of_length_le_two {ans : List (Option Byte)} (hlen : ans.length ≤ 2) :
    none ∈ ans ↔ ans[0]? = some none ∨ ans[1]? = some none := by
  rcases cases_of_length_le_two hlen with rfl | ⟨a, rfl⟩ | ⟨a0, a1, rfl⟩
  · simp
  · simp [eq_comm]
  · simp [eq_comm]

/-- Settles O18: the kind is the selector's class, and each flag is set where its read had no
byte. -/
theorem goneWrongExactly : Obligations.GoneWrongExactly := by
  intro sentinel op id arg ans hlen
  obtain ⟨hflag0, hflag1, -⟩ := flagsTellTheAnswers sentinel op id arg ans hlen
  rw [Result.goneWrong_iff, bigStep_result_kind, responseClass_eq_illegal_iff, flags_ne_zero_iff,
    hflag0, hflag1, none_mem_iff_of_length_le_two (hlen ▸ rxNeed_le_two op)]

end Sys2Proof.Machine
end

section
/-! PROOFS. A reset in the middle of a frame (70_reset_and_hazards R176): bytes are taken one by one
until `rst` is sampled as 1, and the rest of the command's opportunities find the block in IDLE. -/

namespace Sys2Proof.Machine

variable {s : State}

/-- The state once the next `k` bytes of frame `f`, not its last one among them, are taken. -/
def State.bytesSent (s : State) (f : List Byte) (k : Nat) : State :=
  { s with
    txIdx := s.txIdx + BitVec.ofNat 3 k
    rst := s.rst.drop k
    txAllow := spend k s.txAllow
    trace := s.trace ++ ((f.drop s.txIdx.toNat).take k).map .tx }

theorem bytesSent_zero (s : State) (f : List Byte) : s.bytesSent f 0 = s := by
  simp [State.bytesSent]

theorem sent_phase_of_not_last {len : Nat} (hx : s.txIdx.toNat + 1 < len) (b : Byte) :
    (s.sent len b).phase = s.phase := if_neg hx.ne

/-- One byte taken, then `k` more, are `k + 1` bytes. -/
theorem bytesSent_sent {f : List Byte} (hlen : f.length ≤ 4) (hx : s.txIdx.toNat + 1 < f.length)
    (k : Nat) :
    (s.rstRead.sent f.length f[s.txIdx.toNat]).bytesSent f k = s.bytesSent f (k + 1) := by
  have hphase := sent_phase_of_not_last (s := s.rstRead) hx f[s.txIdx.toNat]
  have hidx : s.txIdx + 1 + BitVec.ofNat 3 k = s.txIdx + BitVec.ofNat 3 (k + 1) := by
    rw [BitVec.add_assoc, BitVec.ofNat_add, BitVec.add_comm 1]
    rfl
  have hbytes : [.tx f[s.txIdx.toNat]] ++ ((f.drop (s.txIdx.toNat + 1)).take k).map Event.tx
      = ((f.drop s.txIdx.toNat).take (k + 1)).map .tx := by
    rw [List.drop_eq_getElem_cons (Nat.lt_of_succ_lt hx)]
    rfl
  rw [State.sent_phase] at hphase
  simp only [State.bytesSent, State.sent, hphase]
  simp only [State.rstRead, toNat_txIdx_succ hlen (Nat.lt_of_succ_lt hx), hidx, hbytes,
    List.append_assoc, List.drop_tail, spend_spend, Nat.add_comm 1]

theorem sendNext_of_reset (hp : s.phase = .tx) (h : s.rst.headD false = true) (f : List Byte) :
    sendNext f s = s.rstRead.resetDone :=
  (if_pos hp).trans (opportunity_of_reset h (send f))

/-- With a reset sampled after `k` bytes, `k + 1` SEND opportunities or more take these bytes and the
reset, and nothing after it. -/
theorem times_sendNext_of_reset_after {f : List Byte} {later : List Bool} (hlen : f.length ≤ 4)
    (k n : Nat) (s : State) (hn : k ≤ n) (hp : s.phase = .tx) (hx : s.txIdx.toNat + k < f.length)
    (ha : atLeast k s.txAllow = true) (hr : s.rst = List.replicate k false ++ true :: later) :
    times (n + 1) (sendNext f) s = (s.bytesSent f k).rstRead.resetDone := by
  induction k generalizing n s with
  | zero =>
    rw [times, sendNext_of_reset hp (by rw [hr]; rfl),
      times_of_fixed (sendNext_of_not_tx f (by simp)), bytesSent_zero]
  | succ k ih =>
    obtain ⟨m, rfl⟩ := Nat.exists_eq_succ_of_ne_zero (Nat.ne_zero_of_lt hn)
    have hnext : s.txIdx.toNat + 1 < f.length := by omega
    have hlt : s.txIdx.toNat < f.length := Nat.lt_of_succ_lt hnext
    rw [times, sendNext_of_ready hp (by rw [hr]; rfl) (allows_of_atLeast ha k.succ_pos) hlt,
      ← bytesSent_sent hlen hnext]
    refine ih m _ (by omega) ?_ ?_ (atLeast_spend ha (by omega)) ?_
    · exact (sent_phase_of_not_last (s := s.rstRead) hnext _).trans hp
    · rw [State.sent_txIdx, State.rstRead_txIdx, toNat_txIdx_succ hlen hlt]
      omega
    · rw [State.sent_rst, State.rstRead_rst, hr]
      rfl

/-- A command whose frame a reset cuts after `k` bytes is its ACCEPT, these bytes and the reset: it
reads nothing and delivers nothing. -/
theorem runCommand_of_reset_after {op : Op} {k : Nat} {later : List Bool} (hp : s.phase = .idle)
    (hop : op.toNat ≤ 4) (hk : k < txLen op) (ha : atLeast k s.txAllow = true)
    (hr : s.rst = List.replicate (k + 1) false ++ true :: later) (id : Byte) (arg : Half) :
    runCommand op id arg s
      = ((s.rstRead.accepted op id arg).bytesSent (frameOf op id arg) k).rstRead.resetDone := by
  have hlen := frameOf_length op id arg
  have hlen4 := txLen_le_four op
  have haccept : opportunity (accept op id arg) s = s.rstRead.accepted op id arg :=
    (opportunity_of_no_reset (by rw [hr]; rfl) _).trans (if_pos hp)
  have hsend : sendFrame (frameOf op id arg) (s.rstRead.accepted op id arg)
      = ((s.rstRead.accepted op id arg).bytesSent (frameOf op id arg) k).rstRead.resetDone :=
    times_sendNext_of_reset_after (later := later) (hlen ▸ hlen4) k 3 _ (by omega) (if_pos hop)
      (by rw [hlen]; simpa using hk) ha (by rw [State.accepted_rst, State.rstRead_rst, hr]; rfl)
  rw [runCommand_of_idle op id arg hp, haccept, hsend,
    readResponse_of_not_reading (by simp) (by simp), deliverResult_of_not_done (by simp)]

/-- Settles O47: the step is the cut command, whose writes are looked up field by field. -/
theorem resetAbandonsTheFrame : Obligations.ResetAbandonsTheFrame := by
  intro s cw rest n later hp hc hop hn ha hr
  refine ⟨_, (step_of_idle_offer hp hc).trans
    (congrArg _ (runCommand_of_reset_after hp hop hn ha hr _ _)), ?_⟩
  simp [State.bytesSent, hr, hc, List.replicate_succ]

end Sys2Proof.Machine
end
